-- ==== Sys2Proof/Word.lean ====
section
/-! DEFINITION. The word types of the CQ-420: bytes, the 32-bit addresses and indices of R1 and of the ring
rules, and the 16-byte beats of the links (00_scope.md, terms). -/

namespace Sys2Proof

/-- One byte of memory or of a frame. -/
abbrev Byte := BitVec 8

/-- A 32-bit byte address of the links, or a free-running 32-bit ring index (00_scope.md, ring indices). -/
abbrev Word := BitVec 32

/-- A 64-bit time or detail word. -/
abbrev Word64 := BitVec 64

/-- One beat: 16 data bytes, byte `j` in bits `8j+7 … 8j`, and 16 byte strobes, strobe `j` in bit `j` (R1). -/
structure Beat where
  data : BitVec 128
  strobes : BitVec 16
  deriving DecidableEq, Repr

end Sys2Proof
end

