-- ==== Sys2Proof/Syntax.lean ====
section
/-! DEFINITION. The commands of the part: one constructor for each row of spec/opcode_table.json, with the operands
that come from outside the part (a transaction, memory's answer, a strap level) or that the spec leaves to the order
of events (which ring, which context, which block). -/

namespace Sys2Proof

/-- The nine blocks (00_scope.md, block overview), in the order of their codes (11, enumerations). -/
inductive Block where
  | lif | rmn | tdr | csv | rfm | cvm | tbs | ccu | rpw
  deriving DecidableEq, Repr

/-- The part's steps, in the order of the table. -/
inductive Instr where
  /-- RST_N is asserted; `attnPol` is the level of the ATTN_POL pin at that moment (R22, R190). -/
  | pinReset (attnPol : Bool)
  /-- RST_N is released with CA_SEL strapped to `caSel` (R165). -/
  | resetRelease (caSel : BitVec 8)
  /-- A U-link write: initiator, byte address, beats (R1). -/
  | ulinkWrite (initiator : Fin 16) (addr : Word) (beats : List Beat)
  /-- A U-link read of `burst` beats (R1, R5). -/
  | ulinkRead (initiator : Fin 16) (addr : Word) (burst : Nat)
  /-- The D-link can take a transaction (R18). -/
  | dlinkGrant
  /-- Memory answers the `i`-th unanswered forwarded transaction, counted from the oldest (R2). -/
  | forwardResponse (i : Nat) (ok : Bool) (data : List (BitVec 128))
  /-- Memory answers the `i`-th unanswered injected transaction, a write (R17). -/
  | injectedWriteAnswer (i : Nat) (ok : Bool)
  /-- Memory answers the `i`-th unanswered injected transaction, a one-beat read (R17). -/
  | injectedReadAnswer (i : Nat) (ok : Bool) (data : BitVec 128)
  /-- DISABLING of ring `r` ends (R28). -/
  | ringDisableComplete (r : Fin 16)
  /-- The next slot of uplink ring `r` commits (R36). -/
  | slotCommit (r : Fin 16)
  /-- The next slot of downlink ring `r` commits (R96). -/
  | downlinkSlotCommit (r : Fin 16)
  /-- The head frame of the dispatch queue is handled (R43). -/
  | dispatchFrame
  /-- The deadline countdown of context `k` expires (R72). -/
  | deadlineExpiry (k : Fin 32)
  | nop
  | unknownCommand
  | setTime
  | adjustTime
  | sweepNow
  | registerTerminal
  | deregisterTerminal
  | bindCrane
  | unbindCrane
  | forceHold
  | releaseHold
  | addReefer
  | clearDose
  | retireReefer
  | resetBin
  | snapshotCoverage
  /-- The next bin row joins the injection queue (R144). -/
  | snapshotRow
  /-- The period countdown expires (R157). -/
  | sweepPeriodExpiry
  /-- A rising edge on SWEEP_IN (R157). -/
  | sweepInEdge
  | directoryAgingVisit
  | reeferVisit
  | gridAgingVisit
  | refreshSection
  | digestDrainStep
  /-- The report writer takes the oldest request of block `b` (R183). -/
  | eventTake (b : Block)
  | areaInitialisation
  | suspendDrained
  /-- The ATTN_POL pin changes level while RST_N is asserted (R190). -/
  | attnPolChangeInReset
  deriving DecidableEq, Repr

end Sys2Proof
end

