-- ==== Sys2Proof/Decode.lean ====
section
/-! DEFINITION. The host's hook for words. No row of spec/opcode_table.json gives bits: a command of this part is an
event on a link, on a pin or inside the part, and no word spells one. -/

namespace Sys2Proof

/-- The command that a word of the table spells: none, since no row of the table has bits. -/
def decodeTableWord (_nbits _w : Nat) : Option Instr := none

end Sys2Proof
end

