-- ==== Sys2Proof/Config.lean ====
section
/-! DEFINITION. What the part fixes once: the capacities of 00_scope.md (device capacities), and the two values the
spec leaves open (constants with no body: nothing can be proved of their value). -/

namespace Sys2Proof.Config

/-- Transactions the forward path holds before the LIF stops accepting (R1). -/
def forwardDepth : Nat := 16
/-- Entries of a withheld-response list (R8). -/
def withheldDepth : Nat := 16
/-- Entries of the injection queue (R16). -/
def injectionDepth : Nat := 16
/-- Entries of the dispatch queue (R42). -/
def dispatchDepth : Nat := 32
/-- Records of the event ring and of the digest ring (R183, R187). -/
def outputRingSize : Nat := 1024
/-- Records of the command ring (R178). -/
def commandRingSize : Nat := 256
/-- Entries of the early event list (R185). -/
def earlyDepth : Nat := 16
/-- Entries of a pending command list (R60, R77). -/
def pendingCommands : Nat := 4
/-- The largest 32-bit value, at which the saturating counts stop. -/
def max32 : Nat := 0xFFFFFFFF

/-- DESIGN CHOICE (log 27). The third detail word of REEFER_RETIRED says whether the retirement digest was
written or lost (R126); the spec gives no code for the two, so the word is a free value. -/
opaque retireDigestWord : Bool → Word64

/-- DESIGN CHOICE (log 32). Whether the beats of a burst beyond the last byte of the 32-bit address space lie at its
beginning; the spec does not say, so it is a free value. -/
opaque wrapsAtTop : Bool

end Sys2Proof.Config
end

