-- ==== Sys2Proof/Machine/State.lean ====
section
/-! DEFINITION. The state of the CQ-420: every register, queue, table, counter and mode the spec gives each block,
as plain data, and the state after pin reset. Values that the spec states no reset value for are named in log 3 and
log 30. -/

namespace Sys2Proof.Machine

/-! ## Enumerations (11_formats_in_memory.md, enumerations) -/

inductive SlotStatus where
  | empty | holding | committing
  deriving DecidableEq, Repr

inductive RingState where
  | disabled | rejected | enabling | enabled | disabling
  deriving DecidableEq, Repr

inductive RejectCause where
  | size | count | align | range | area | overlap | index
  deriving DecidableEq, Repr

inductive Direction where
  | uplink | downlink
  deriving DecidableEq, Repr

/-- Why a slot is MISSED (R32, R33). -/
inductive MissCause where
  | exhausted | foreign
  deriving DecidableEq, Repr

/-- Why a frame will not be rewritten (R89). -/
inductive SkipCause where
  | order | partialBeat | foreign | noTracker | noBeat1
  deriving DecidableEq, Repr

/-- The verdict on an uplink slot (R37). -/
inductive Verdict where
  | accepted | malformed | foreignDomain | ignoredKind | uncaptured
  deriving DecidableEq, Repr

/-- The reason in a receipt (R38). -/
inductive Reason where
  | none | magic | version | length | check | count | exhausted | foreign | notWritten
  deriving DecidableEq, Repr

inductive PartState where
  | dormant | initialising | running | suspending | suspended
  deriving DecidableEq, Repr

inductive ChangeCause where
  | runOn | runOff | initDone | drained
  deriving DecidableEq, Repr

inductive LockCause where
  | ring | coverage | crane | state
  deriving DecidableEq, Repr

inductive TermKind where
  | crane | reeferGateway | survey | other
  deriving DecidableEq, Repr

inductive TermState where
  | free | learned | registered
  deriving DecidableEq, Repr

inductive CraneState where
  | unbound | watch | live | degraded | hold
  deriving DecidableEq, Repr

inductive HoldCause where
  | misses | forced
  deriving DecidableEq, Repr

inductive Condition where
  | normal | warn | breach
  deriving DecidableEq, Repr

inductive MissReason where
  | gatewaySilent | coverage | reeferSilent
  deriving DecidableEq, Repr

inductive CellState where
  | unknown | sparse | good | weak
  deriving DecidableEq, Repr

inductive EvalCause where
  | sample | penalty | aging | reset | enable
  deriving DecidableEq, Repr

/-- The sweep trigger select, and the source of a trigger (R157, R158). -/
inductive TrigSel where
  | command | period | pin
  deriving DecidableEq, Repr

inductive SweepPhase where
  | directory | reefer | grid | refresh
  deriving DecidableEq, Repr

inductive SnapOutcome where
  | none | done | partialRows
  deriving DecidableEq, Repr

inductive ExecState where
  | idle | executing | writingBack
  deriving DecidableEq, Repr

/-- The status codes of commands (R180). -/
inductive Status where
  | done | partialDone | badArgument | unknownCommand | notFound | exists' | full | inUse | wrongState | notReady
  | jobDisabled
  deriving DecidableEq, Repr

/-- The event kinds (10, event kinds). -/
inductive EventKind where
  | ringResync | ringHigh | ringLow | producerOverrun | foreignWrite | captureExhausted | frameMalformed | indexInvalid
  | rewriteSkipped | ownedAreaWrite | memoryError | terminalLearned | directoryFull | learnedEvicted | terminalAged
  | craneLive | craneDegraded | craneHold | craneHoldReady | craneReleased | craneEstop | craneUnboundFrame
  | craneJitterHigh | reeferNew | reeferTableFull | reeferWarn | reeferBreach | reeferMissing | reeferBack
  | reeferAlarm | reeferSensor | reeferRetired | preferredChanged | binHole | binHoleCleared | timeSet | sweepOverrun
  | stateChanged | configLocked | eventsLost | commandIndexInvalid
  deriving DecidableEq, Repr

inductive SubjKind where
  | ring | outputRing | initiator | block | terminal | context | tag | bin | part | field
  deriving DecidableEq, Repr

/-! ## Link interface -/

/-- Pending byte positions of a field and the byte last written at each (R6), positions rising. -/
abbrev Assembly := List (Nat × Byte)

/-- A forwarded transaction (R1, R2). `direct`: memory's answer goes to the initiator. Otherwise it concerns the
held transactions named in `held` (R9, R11). -/
structure FwdTxn where
  initiator : Fin 16
  addr : Word
  isRead : Bool
  /-- Beats of a read. -/
  burst : Nat
  /-- Beats of a write. -/
  beats : List Beat
  direct : Bool
  held : List Nat
  deriving DecidableEq, Repr

/-- A transaction whose response is withheld (R9); `err`: one of its parts was answered ERROR. -/
structure HeldTxn where
  id : Nat
  initiator : Fin 16
  err : Bool
  deriving DecidableEq, Repr

/-- A response given to an initiator on the U-link (R2). -/
structure UResponse where
  initiator : Fin 16
  ok : Bool
  data : List (BitVec 128)
  deriving DecidableEq, Repr

/-- The held-write slot of a ring (R8). `joined`: the transactions of another ring's released slot for the same word, which
this slot's released write answers. `targetInit`: the initiator that completed the commit target (R6). -/
structure HeldSlot where
  status : SlotStatus
  withheld : List Nat
  joined : List Nat
  pend : Assembly
  completed : Option Word
  target : Option Word
  targetInit : Fin 16
  lastInit : Fin 16
  deriving DecidableEq, Repr

/-- What the answer to an injected transaction is for (R17). -/
inductive InjTag where
  | plain
  /-- A receipt of ring `r`, of the enabling generation `gen` (log 15). -/
  | receipt (r : Fin 16) (gen : Nat)
  /-- A baseline read (R27). -/
  | baseline (r : Fin 16) (gen : Nat) (consumer : Bool)
  /-- An index read of area initialisation (R171): 0 command producer, 1 event consumer, 2 digest consumer. -/
  | initRead (w : Fin 3)
  /-- A command status write (R181). -/
  | commandStatus
  /-- A write that carries the output ring indices E and Dp (R189). -/
  | indices (e dp : Word)
  deriving DecidableEq, Repr

/-- An entry of the injection queue (R16); its initiator number on the D-link is 16 (R17). -/
structure InjEntry where
  initiator : Fin 17 := 16
  block : Block
  addr : Word
  isRead : Bool
  beats : List Beat
  ordered : Bool
  eventMark : Bool
  tag : InjTag
  deriving DecidableEq, Repr

/-- One slot's commit from step 4 of R36 on. -/
structure CommitPoint where
  ring : Fin 16
  index : Word
  slot : Nat
  buf : Option (Fin 64)
  verdict : Verdict
  reason : Reason
  length : Nat
  runTime : Nat
  siteTime : Word64
  deriving DecidableEq, Repr

/-- A request to the injection queue, with what the requesting block does as it joins (R16). -/
inductive InjOp where
  | receipt (c : CommitPoint)
  | baselineRead (r : Fin 16) (gen : Nat) (consumer : Bool)
  | initRead (w : Fin 3)
  | ringRecord (r : Fin 16)
  | partRecord (part : PartState) (site : Word64)
  | statusPage
  | statusRest (offset : Nat) (bytes : List Byte)
  | earlyRecord (bytes : List Byte) (last : Bool)
  | eventRecord (bytes : List Byte)
  | eventsLostRecord (bytes : List Byte) (thenLose : Option EventKind)
  | indices (mark : Bool)
  | doneIndices
  | digestRecord (bytes : List Byte)
  | commandStatus (slot : Nat) (bytes : List Byte)
  | snapOpening
  | snapRow (b : Fin 64)
  | snapFields
  | snapClosing
  | refresh (sec : Fin 5)
  | refreshRest (offset : Nat) (bytes : List Byte)
  deriving DecidableEq, Repr

structure Lif where
  forwardPath : List FwdTxn
  fwdInFlight : List FwdTxn
  heldTxns : List HeldTxn
  slots : Vector HeldSlot 16
  prodShadow : Vector Assembly 16
  consShadow : Vector Assembly 16
  hostShadow : Assembly
  injQueue : List InjEntry
  injWaiting : List (Block × InjOp)
  injInFlight : List InjEntry
  arbCount : Nat
  txnCount : Nat
  uOut : List UResponse
  deriving DecidableEq, Repr

/-! ## Ring monitor -/

/-- An applied ring descriptor (R23). -/
structure RingDesc where
  enable : Bool
  dir : Direction
  prodInit : Nat
  receipts : Bool
  check : Bool
  stamp : Bool
  steer : Bool
  hold : Bool
  base : Nat
  slotSize : Nat
  slotCount : Nat
  prodAddr : Nat
  consAddr : Nat
  high : Nat
  low : Nat
  deriving DecidableEq, Repr

/-- Header facts of a downlink frame (R89). -/
structure Facts where
  tid : BitVec 16
  seq : BitVec 16
  len : Nat
  deriving DecidableEq, Repr

/-- What a slot map holds for a slot that is not empty, each tied to one index (R25 table, R89). -/
inductive SlotEntry where
  | filling (buf : Fin 64) (i : Word)
  | missed (cause : MissCause) (i : Word)
  | tracked (t : Fin 8) (i : Word)
  | passed (i : Word)
  | skipped (cause : SkipCause) (facts : Option Facts) (i : Word)
  deriving DecidableEq, Repr

/-- A commit in progress (R34): its target, and whether a held write is to be released at its end (R40). -/
structure Commit where
  target : Word
  byRequest : Bool
  deriving DecidableEq, Repr

/-- A ring: its applied descriptor and its runtime record (R25 table). `valueFrom`: the initiator number handed on with the
last index value (R6). -/
structure Ring where
  desc : RingDesc
  state : RingState
  cause : Option RejectCause
  prod : Word
  cons : Word
  above : Bool
  slotMap : List (Nat × SlotEntry)
  commit : Option Commit
  outstanding : Nat
  gen : Nat
  baseP : Option Word
  baseC : Option Word
  keptC : Option Word
  resyncs : Nat
  valueFrom : Option (Fin 16)
  deriving DecidableEq, Repr

/-- The state of a capture buffer (R31). -/
inductive BufState where
  | free
  | filling (r : Fin 16) (slot : Nat) (i : Word)
  | queued
  deriving DecidableEq, Repr

structure Buffer where
  st : BufState
  bytes : Vector Byte 256
  deriving DecidableEq, Repr

/-- A dispatch entry (R42). `named`: the context of the last UNBIND_CRANE of the frame's terminal since the frame was queued
(R83; log 52). -/
structure DispatchEntry where
  ring : Fin 16
  index : Word
  runTime : Nat
  buf : Fin 64
  named : Option (Fin 32) := none
  deriving DecidableEq, Repr

inductive TrackState where
  | free | opened | done
  deriving DecidableEq, Repr

/-- A rewrite tracker (R88). -/
structure Tracker where
  st : TrackState
  ring : Fin 16
  slot : Nat
  index : Word
  ctx : Fin 32
  facts : Facts
  state : CraneState
  bin : Option (Fin 64)
  cell : Option (Fin 16)
  hole : Bool
  stamp : Option Nat
  deriving DecidableEq, Repr

/-- The directory result of a frame (R53). -/
structure DirResult where
  index : Fin 256
  kind : TermKind
  homeBin : Option (Fin 64)
  lastBin : Option (Fin 64)
  lastCell : Option (Fin 16)
  ctx : Option (Fin 32)
  deriving DecidableEq, Repr

/-- The head frame's handling, stopped at a request that cannot be taken at once (R106): `raised`, behind the events of an
entry, otherwise at a digest. The digest of record `owed` is still to be requested; `next` is the entry that follows. -/
structure Handling where
  runTime : Nat
  result : Option DirResult
  next : Nat
  owed : Option (Fin 2048)
  raised : Bool
  deriving DecidableEq, Repr

/-- The commit of a downlink slot, held behind an event request (R96): the commit run time it read, whether step 3 is done,
with step 4 left, and whether REWRITE_SKIPPED has been raised for the slot (R98). `givenUp`: an extension named P, and a later
commit takes the slot from its beginning (log 14). -/
structure Midway where
  runTime : Nat
  measured : Bool
  told : Bool
  givenUp : Bool
  deriving DecidableEq, Repr

structure Rmn where
  rings : Vector Ring 16
  buffers : Vector Buffer 64
  exhausted : Bool
  dispatch : List DispatchEntry
  paused : List (Fin 16)
  handling : Option Handling
  trackers : Vector Tracker 8
  midway : Vector (Option Midway) 16
  deriving DecidableEq, Repr

/-! ## Terminal directory -/

/-- A terminal entry (R46). `former`: the context of its last UNBIND_CRANE (R83; log 52). -/
structure Terminal where
  st : TermState
  id : BitVec 16
  kind : TermKind
  homeBin : Option (Fin 64)
  lastBin : Option (Fin 64)
  lastCell : Option (Fin 16)
  lastMargin : Option Int
  lastSeen : Nat
  frames : Nat
  ctx : Option (Fin 32)
  unboundMark : Bool
  former : Option (Fin 32) := none
  deriving DecidableEq, Repr

structure Tdr where
  entries : Vector Terminal 256
  attach : Vector Nat 16
  deriving DecidableEq, Repr

/-! ## Crane supervisor -/

/-- A pending command: its sequence and its stamp run time (R60). -/
structure PendingCmd where
  seq : BitVec 16
  stamp : Nat
  deriving DecidableEq, Repr

/-- The round-trip statistics, present or absent together (R60, R87). -/
structure RoundTrip where
  last : Nat
  min : Nat
  max : Nat
  srtt : Nat
  deriving DecidableEq, Repr

/-- A crane context (R60). -/
structure Crane where
  st : CraneState
  tid : BitVec 16
  dirIndex : Fin 256
  deadline : Nat
  countdown : Option Nat
  holdLimit : Nat
  goodRun : Nat
  window : Nat
  good : Nat
  miss : Nat
  lastSeq : Option (BitVec 16)
  lost : Nat
  duplicate : Nat
  stale : Nat
  unanswered : Nat
  lastPos : Option Word
  bin : Option (Fin 64)
  cmds : List PendingCmd
  rtt : Option RoundTrip
  jitter : Nat
  prevSender : Option Word
  prevArrival : Option Nat
  alarmRaised : Bool
  ready : Bool
  holdCause : Option HoldCause
  estop : Bool
  deriving DecidableEq, Repr

/-! ## Reefer monitor -/

/-- A reefer record (R103). `used` false: FREE. -/
structure Reefer where
  used : Bool
  tag : Word
  profile : Fin 8
  gateway : BitVec 16
  gwHomeBin : Option (Fin 64)
  gwSlot : BitVec 16
  cond : Condition
  missing : Bool
  reason : Option MissReason
  sensorFault : Bool
  off : Bool
  defrost : Bool
  mode : Option Byte
  alarm : Byte
  setpoint : Option Int
  heldTemp : Option Int
  excess : Nat
  lastReport : Nat
  doseClock : Option Nat
  dose : Nat
  residue : Nat
  unobserved : Nat
  reports : Nat
  pending : Bool
  triggers : Nat
  deriving DecidableEq, Repr

structure Rfm where
  recs : Vector Reefer 2048
  draining : Bool
  cursor : Fin 2048
  pendingCount : Nat
  startKept : Bool
  deriving DecidableEq, Repr

/-! ## Coverage mapper -/

/-- A grid cell (R129). -/
structure Cell where
  m : Int
  n : Nat
  last : Nat
  st : CellState
  deriving DecidableEq, Repr

/-- A bin: its row of cells, its hole flag and its preferred cell (R129). -/
structure Bin where
  cells : Vector Cell 16
  hole : Bool
  pref : Option (Fin 16)
  deriving DecidableEq, Repr

structure Cvm where
  bins : Vector Bin 64
  snapRunning : Bool
  nextBin : Nat
  copied : Nat
  outcome : SnapOutcome
  gen : Word
  folded : Nat
  discarded : Nat
  deriving DecidableEq, Repr

/-! ## Timebase and sweep -/

/-- The timebase and the sweep record (R152, R153, R156). `refreshing`, `visiting`: a refresh section waits for the injection
queue, the events or the digest of a visit are not all taken and joined, and the sweep waits with it (R160, R164; log 37). -/
structure Tbs where
  runClock : Nat
  offset : Word64
  sweeping : Bool
  phase : SweepPhase
  cursor : Nat
  rangeStart : Nat
  rangeEnd : Nat
  restart : Bool
  sweepStart : Word64
  latchedSel : TrigSel
  latchedPeriod : Nat
  countdown : Option Nat
  completed : Word
  overruns : Nat
  refreshing : Bool
  visiting : Bool
  deriving DecidableEq, Repr

/-! ## Control capture -/

/-- A reefer profile (R105). -/
structure Profile where
  tolHi : Nat
  tolLo : Nat
  warnDose : Nat
  breachDose : Nat
  interval : Nat
  missFactor : Nat
  holdCap : Nat
  deriving DecidableEq, Repr

/-- The configuration shadow but for the ring descriptors, which the ring monitor holds (R166, R168). -/
structure Cfg where
  run : Bool
  restartGen : Nat
  craneEn : Bool
  reeferEn : Bool
  coverageEn : Bool
  kindMask : Nat
  domain : Nat
  domainCheck : Bool
  version : Nat
  passShare : Nat
  attnEn : Bool
  attnDigest : Bool
  sweepSel : TrigSel
  sweepPeriod : Nat
  rangeStart : Nat
  rangeEnd : Nat
  learnAge : Nat
  defaultProfile : Nat
  digestPeriod : Nat
  retireAge : Nat
  jitterLimit : Nat
  origin : Nat
  binWidth : Nat
  binCount : Nat
  cellCount : Nat
  kcfg : Nat
  minSamples : Nat
  goodDb : Int
  weakDb : Int
  switchHyst : Nat
  loadLimit : Nat
  ageLimit : Nat
  penaltyMargin : Int
  profiles : Vector Profile 8
  deriving DecidableEq, Repr

/-- The control capture. `capturedFrom`: the initiator number captured with the last host-page write (R4, R6). -/
structure Ccu where
  cfg : Cfg
  commandRing : Vector (Vector Byte 64) 256
  part : PartState
  initReads : Vector (Option Word) 3
  initKept : Vector (Option Word) 3
  lastChange : Word64
  capturedFrom : Option (Fin 16)
  deriving DecidableEq, Repr

/-! ## Report writer -/

/-- An event request (R183): who raised it, what the record carries but for its site time, and whether the command in
progress (R180, log 10) or the sweep visit under way (R160, log 37) raised it. -/
structure EventReq where
  block : Block
  kind : EventKind
  subjKind : SubjKind
  subject : Word
  d0 : Word
  d1 : Word64
  d2 : Word64
  ofCommand : Bool
  ofVisit : Bool := false
  deriving DecidableEq, Repr

structure Rpw where
  events : List EventReq
  exec : ExecState
  result : Option Status
  done : Word
  prod : Word
  indicesSet : Bool
  evProd : Word
  evCons : Word
  dgProd : Word
  dgCons : Word
  pubEv : Word
  pubDg : Word
  lost : Nat
  firstLost : Option EventKind
  lastLost : Option EventKind
  /-- Events taken before initialisation, each with the site time at which it was taken (R185). -/
  early : List (EventReq × Word64)
  earlyLoss : Nat
  earlyFirst : Option EventKind
  earlyLast : Option EventKind
  serving : Option Block
  deriving DecidableEq, Repr

/-- The pins and the sampled straps (R165, R190). -/
structure Pins where
  inReset : Bool
  attnPolPin : Bool
  caSel : BitVec 8
  attnPol : Bool
  deriving DecidableEq, Repr

/-- The whole part, and the queue of commands that wait. -/
structure State where
  pending : List Instr
  pins : Pins
  lif : Lif
  rmn : Rmn
  tdr : Tdr
  csv : Vector Crane 32
  rfm : Rfm
  cvm : Cvm
  tbs : Tbs
  ccu : Ccu
  rpw : Rpw
  deriving DecidableEq, Repr

/-- The part has no trap: an error it observes is an event, a status, a verdict or an ERROR response. So no command raises a
fault, and there is none. -/
inductive Fault where
  deriving DecidableEq, Repr

inductive Refusal where
  /-- Raised by `exec`'s arms for a command that has no meaning yet. Safe. -/
  | notModelled (mnemonic : String)
  /-- Raised by ULINK_WRITE and ULINK_READ for a term that is no transaction of the shape of R1 (no beat, more than 16
  beats, an address not aligned to a beat). Safe: no such transaction exists. -/
  | illFormed
  deriving DecidableEq, Repr

/-! ## Pin-reset values -/

/-- An EMPTY held-write slot (R8). -/
def HeldSlot.empty : HeldSlot :=
  { status := .empty, withheld := [], joined := [], pend := [], completed := none, target := none, targetInit := 0,
    lastInit := 0 }

/-- The LIF after pin reset (R22). -/
def Lif.reset : Lif :=
  { forwardPath := [], fwdInFlight := [], heldTxns := [], slots := Vector.replicate 16 .empty,
    prodShadow := Vector.replicate 16 [], consShadow := Vector.replicate 16 [], hostShadow := [],
    injQueue := [], injWaiting := [], injInFlight := [], arbCount := 0, txnCount := 0, uOut := [] }

/-- A ring descriptor after pin reset (R169). -/
def RingDesc.reset : RingDesc :=
  { enable := false, dir := .uplink, prodInit := 16, receipts := true, check := false, stamp := false,
    steer := false, hold := true, base := 0, slotSize := 256, slotCount := 8, prodAddr := 0, consAddr := 0,
    high := 8, low := 0 }

/-- A ring after pin reset (R30). -/
def Ring.reset : Ring :=
  { desc := .reset, state := .disabled, cause := none, prod := 0, cons := 0, above := false, slotMap := [],
    commit := none, outstanding := 0, gen := 0, baseP := none, baseC := none, keptC := none, resyncs := 0,
    valueFrom := none }

/-- A FREE capture buffer (R30, R31; its bytes: log 30). -/
def Buffer.reset : Buffer := { st := .free, bytes := Vector.replicate 256 0 }

/-- A FREE rewrite tracker (R88; its other fields: log 30). -/
def Tracker.reset : Tracker :=
  { st := .free, ring := 0, slot := 0, index := 0, ctx := 0, facts := { tid := 0, seq := 0, len := 0 },
    state := .unbound, bin := none, cell := none, hole := false, stamp := none }

/-- The RMN after pin reset (R30, R88). -/
def Rmn.reset : Rmn :=
  { rings := Vector.replicate 16 .reset, buffers := Vector.replicate 64 .reset, exhausted := false, dispatch := [],
    paused := [], handling := none, trackers := Vector.replicate 8 .reset, midway := Vector.replicate 16 none }

/-- A FREE terminal entry, every field cleared (R48); that its kind is CRANE, its terminal id 0 and its last seen 0 is the
model's choice (log 30). -/
def Terminal.reset : Terminal :=
  { st := .free, id := 0, kind := .crane, homeBin := none, lastBin := none, lastCell := none, lastMargin := none,
    lastSeen := 0, frames := 0, ctx := none, unboundMark := false }

/-- The TDR after pin reset (R59). -/
def Tdr.reset : Tdr := { entries := Vector.replicate 256 .reset, attach := Vector.replicate 16 0 }

/-- An UNBOUND context after pin reset (R61; identity and limits: log 30). -/
def Crane.reset : Crane :=
  { st := .unbound, tid := 0, dirIndex := 0, deadline := 0, countdown := none, holdLimit := 0, goodRun := 0,
    window := 0, good := 0, miss := 0, lastSeq := none, lost := 0, duplicate := 0, stale := 0, unanswered := 0,
    lastPos := none, bin := none, cmds := [], rtt := none, jitter := 0, prevSender := none, prevArrival := none,
    alarmRaised := false, ready := false, holdCause := none, estop := false }

/-- A FREE reefer record (R103, R104; a FREE record holds nothing). -/
def Reefer.reset : Reefer :=
  { used := false, tag := 0, profile := 0, gateway := 0, gwHomeBin := none, gwSlot := 0, cond := .normal,
    missing := false, reason := none, sensorFault := false, off := false, defrost := false, mode := none, alarm := 0,
    setpoint := none, heldTemp := none, excess := 0, lastReport := 0, doseClock := none, dose := 0, residue := 0,
    unobserved := 0, reports := 0, pending := false, triggers := 0 }

/-- The RFM after pin reset (R104). -/
def Rfm.reset : Rfm :=
  { recs := Vector.replicate 2048 .reset, draining := false, cursor := 0, pendingCount := 0, startKept := false }

/-- A grid cell that holds no sample (R129). -/
def Cell.reset : Cell := { m := 0, n := 0, last := 0, st := .unknown }

/-- A bin after pin reset (R129). -/
def Bin.reset : Bin := { cells := Vector.replicate 16 .reset, hole := false, pref := none }

/-- The CVM after pin reset (R129). -/
def Cvm.reset : Cvm :=
  { bins := Vector.replicate 64 .reset, snapRunning := false, nextBin := 0, copied := 0, outcome := .none, gen := 0,
    folded := 0, discarded := 0 }

/-- The TBS after pin reset (R152, R153, R156; phase, cursor, latched range and start: log 30). -/
def Tbs.reset : Tbs :=
  { runClock := 0, offset := 0, sweeping := false, phase := .directory, cursor := 0, rangeStart := 0, rangeEnd := 0,
    restart := false, sweepStart := 0, latchedSel := .command, latchedPeriod := 60, countdown := none, completed := 0,
    overruns := 0, refreshing := false, visiting := false }

/-- A reefer profile after pin reset (R169). -/
def Profile.reset : Profile :=
  { tolHi := 20, tolLo := 20, warnDose := 600, breachDose := 1800, interval := 900, missFactor := 3, holdCap := 1800 }

/-- The configuration shadow after pin reset (R168, R169). -/
def Cfg.reset : Cfg :=
  { run := false, restartGen := 0, craneEn := false, reeferEn := false, coverageEn := false, kindMask := 31,
    domain := 0, domainCheck := false, version := 0, passShare := 4, attnEn := false, attnDigest := false,
    sweepSel := .command, sweepPeriod := 60, rangeStart := 0, rangeEnd := 2047, learnAge := 60, defaultProfile := 0,
    digestPeriod := 0, retireAge := 0, jitterLimit := 10000, origin := 0, binWidth := 5000, binCount := 64,
    cellCount := 16, kcfg := 4, minSamples := 4, goodDb := 6, weakDb := 2, switchHyst := 32, loadLimit := 0,
    ageLimit := 60, penaltyMargin := -20, profiles := Vector.replicate 8 .reset }

/-- The CCU after pin reset (R166, R168, R170). -/
def Ccu.reset : Ccu :=
  { cfg := .reset, commandRing := Vector.replicate 256 (Vector.replicate 64 0), part := .dormant,
    initReads := Vector.replicate 3 none, initKept := Vector.replicate 3 none, lastChange := 0,
    capturedFrom := none }

/-- The RPW after pin reset (R182, R185, R189). -/
def Rpw.reset : Rpw :=
  { events := [], exec := .idle, result := none, done := 0, prod := 0, indicesSet := false, evProd := 0, evCons := 0,
    dgProd := 0, dgCons := 0, pubEv := 0, pubDg := 0, lost := 0, firstLost := none, lastLost := none, early := [],
    earlyLoss := 0, earlyFirst := none, earlyLast := none, serving := none }

/-- The machine after pin reset, RST_N still asserted, no command waiting. The pins' levels are log 3. -/
def State.reset : State :=
  { pending := [], pins := { inReset := true, attnPolPin := false, caSel := 0, attnPol := false }, lif := .reset,
    rmn := .reset, tdr := .reset, csv := Vector.replicate 32 .reset, rfm := .reset, cvm := .reset, tbs := .reset,
    ccu := .reset, rpw := .reset }

end Sys2Proof.Machine
end

