-- ==== Sys2Proof/Machine/Codes.lean ====
section
/-! DEFINITION. The codes of the enumerations (11_formats_in_memory.md, enumerations, event record, command record). -/

namespace Sys2Proof.Machine

def blockCode : Block → Nat
  | .lif => 0 | .rmn => 1 | .tdr => 2 | .csv => 3 | .rfm => 4 | .cvm => 5 | .tbs => 6 | .ccu => 7 | .rpw => 8

def verdictCode : Verdict → Nat
  | .accepted => 1 | .malformed => 2 | .foreignDomain => 3 | .ignoredKind => 4 | .uncaptured => 5

def reasonCode : Reason → Nat
  | .none => 0 | .magic => 1 | .version => 2 | .length => 3 | .check => 4 | .count => 5 | .exhausted => 6
  | .foreign => 7 | .notWritten => 8

def skipCode : SkipCause → Nat
  | .order => 1 | .partialBeat => 2 | .foreign => 3 | .noTracker => 4 | .noBeat1 => 5

def ringStateCode : RingState → Nat
  | .disabled => 0 | .rejected => 1 | .enabling => 2 | .enabled => 3 | .disabling => 4

def rejectCode : Option RejectCause → Nat
  | none => 0 | some .size => 1 | some .count => 2 | some .align => 3 | some .range => 4 | some .area => 5
  | some .overlap => 6 | some .index => 7

def partCode : PartState → Nat
  | .dormant => 0 | .initialising => 1 | .running => 2 | .suspending => 3 | .suspended => 4

def changeCode : ChangeCause → Nat
  | .runOn => 1 | .runOff => 2 | .initDone => 3 | .drained => 4

def lockCode : LockCause → Nat
  | .ring => 1 | .coverage => 2 | .crane => 3 | .state => 4

def termKindCode : TermKind → Nat
  | .crane => 0 | .reeferGateway => 1 | .survey => 2 | .other => 3

/-- The terminal kind of a code, if it has one (R54). -/
def termKindOf : Nat → Option TermKind
  | 0 => some .crane | 1 => some .reeferGateway | 2 => some .survey | 3 => some .other | _ => none

def craneCode : CraneState → Nat
  | .unbound => 0 | .watch => 1 | .live => 2 | .degraded => 3 | .hold => 4

/-- The hold cause; 0xFF absent (11, crane summary). -/
def holdCode : Option HoldCause → Nat
  | none => 255 | some .misses => 1 | some .forced => 2

def condCode : Condition → Nat
  | .normal => 0 | .warn => 1 | .breach => 2

/-- The missing reason; 0 absent (11, digest record). -/
def missCode : Option MissReason → Nat
  | none => 0 | some .gatewaySilent => 1 | some .coverage => 2 | some .reeferSilent => 3

def cellCode : CellState → Nat
  | .unknown => 0 | .sparse => 1 | .good => 2 | .weak => 3

def evalCode : EvalCause → Nat
  | .sample => 1 | .penalty => 2 | .aging => 3 | .reset => 4 | .enable => 5

def trigCode : TrigSel → Nat
  | .command => 0 | .period => 1 | .pin => 2

def phaseCode : SweepPhase → Nat
  | .directory => 0 | .reefer => 1 | .grid => 2 | .refresh => 3

def outcomeCode : SnapOutcome → Nat
  | .none => 0 | .done => 1 | .partialRows => 2

def statusCode : Status → Nat
  | .done => 1 | .partialDone => 2 | .badArgument => 3 | .unknownCommand => 4 | .notFound => 5 | .exists' => 6
  | .full => 7 | .inUse => 8 | .wrongState => 9 | .notReady => 10 | .jobDisabled => 11

def subjKindCode : SubjKind → Nat
  | .ring => 1 | .outputRing => 2 | .initiator => 3 | .block => 4 | .terminal => 5 | .context => 6 | .tag => 7
  | .bin => 8 | .part => 9 | .field => 10

def eventCode : EventKind → Nat
  | .ringResync => 0x01 | .ringHigh => 0x02 | .ringLow => 0x03 | .producerOverrun => 0x04 | .foreignWrite => 0x05
  | .captureExhausted => 0x06 | .frameMalformed => 0x07 | .indexInvalid => 0x08 | .rewriteSkipped => 0x09
  | .ownedAreaWrite => 0x10 | .memoryError => 0x11
  | .terminalLearned => 0x20 | .directoryFull => 0x21 | .learnedEvicted => 0x22 | .terminalAged => 0x23
  | .craneLive => 0x30 | .craneDegraded => 0x31 | .craneHold => 0x32 | .craneHoldReady => 0x33
  | .craneReleased => 0x34 | .craneEstop => 0x35 | .craneUnboundFrame => 0x36 | .craneJitterHigh => 0x37
  | .reeferNew => 0x40 | .reeferTableFull => 0x41 | .reeferWarn => 0x42 | .reeferBreach => 0x43
  | .reeferMissing => 0x44 | .reeferBack => 0x45 | .reeferAlarm => 0x46 | .reeferSensor => 0x47
  | .reeferRetired => 0x48
  | .preferredChanged => 0x50 | .binHole => 0x51 | .binHoleCleared => 0x52
  | .timeSet => 0x60 | .sweepOverrun => 0x61 | .stateChanged => 0x62 | .configLocked => 0x63 | .eventsLost => 0x64
  | .commandIndexInvalid => 0x65

/-- The kind of a lost event in an EVENTS_LOST record; 0 where none is kept (R184). -/
def lostKindCode : Option EventKind → Nat
  | none => 0 | some k => eventCode k

/-- A bin or cell number; 0xFF absent (00_scope.md, absent values). -/
def optFin {n : Nat} : Option (Fin n) → Nat
  | none => 255 | some i => i.val

/-- A sequence; 0xFFFF absent (00_scope.md, absent values). -/
def optSeq : Option (BitVec 16) → Nat
  | none => 65535 | some q => q.toNat

/-- A temperature; 0x8000 absent, a negative number as a signed field (R103, R191). -/
def optTemp : Option Int → Int
  | none => -32768 | some t => t

end Sys2Proof.Machine
end

