-- ==== Sys2Proof/Machine/Bytes.lean ====
section
/-! DEFINITION. Byte order, beats, word assembly and the association lists of the slot maps. Every multi-byte field
is little-endian (11_formats_in_memory.md). -/

namespace Sys2Proof.Machine

/-- The low `n` bytes of `v`, least significant first. -/
def leBytes : Nat → Nat → List Byte
  | 0, _ => []
  | n + 1, v => BitVec.ofNat 8 v :: leBytes n (v / 256)

/-- The value of a list of bytes, least significant first. -/
def leVal : List Byte → Nat
  | [] => 0
  | b :: bs => b.toNat + 256 * leVal bs

/-- `v` in `n` bytes, saturated at the field's largest value (R191, saturation). -/
def satBytes (n v : Nat) : List Byte := leBytes n (min v (256 ^ n - 1))

/-- A signed value in `n` bytes, two's complement (R191, widening). -/
def intBytes (n : Nat) (v : Int) : List Byte := leBytes n (v % (256 ^ n : Nat)).toNat

/-- The two's complement reading of a `bits`-bit field (R192, signed fields). -/
def signed (bits v : Nat) : Int := (BitVec.ofNat bits v).toInt

/-- `v` brought into the range `lo … hi` (R167). -/
def clampNat (lo hi v : Nat) : Nat := max lo (min hi v)

/-- `v` brought into the range `lo … hi` (R167). -/
def clampInt (lo hi v : Int) : Int := max lo (min hi v)

/-- Data byte `j` of a beat (R1). -/
def beatByte (b : Beat) (j : Nat) : Byte := b.data.extractLsb' (8 * j) 8

/-- Strobe `j` of a beat (R1). -/
def beatStrobe (b : Beat) (j : Nat) : Bool := b.strobes.getLsbD j

/-- The 16-bit little-endian word `j` of a beat's data (R93). -/
def beatWord (b : Beat) (j : Nat) : Nat := b.data.toNat / 65536 ^ j % 65536

/-- `bs` at offset `off` of a beat, with strobes on exactly those bytes. -/
def packBeat (off : Nat) (bs : List Byte) : Beat :=
  { data := BitVec.ofNat 128 (leVal bs * 256 ^ off), strobes := BitVec.ofNat 16 ((2 ^ bs.length - 1) * 2 ^ off) }

/-- The beats of a write of `bs` from a beat-aligned address, strobes on the bytes of `bs` alone. -/
def beatsOf (bs : List Byte) : List Beat :=
  (List.range ((bs.length + 15) / 16)).map fun k => packBeat 0 ((bs.drop (16 * k)).take 16)

/-- Where the beat that a burst counts to address `a` lies: a burst may count past the last byte of the address space
(R1; log 32). -/
def beatPlace (a : Nat) : Nat := if a < 2 ^ 32 then a else if Config.wrapsAtTop then a - 2 ^ 32 else a

/-- The bytes that a burst from `addr` writes: those whose strobe is set, beat by beat (R1). -/
def writtenBytes (addr : Nat) (beats : List Beat) : List (Nat × Byte) :=
  beats.zipIdx.flatMap fun bk => (List.range 16).filterMap fun j =>
    if beatStrobe bk.1 j then some (beatPlace (addr + 16 * bk.2) + j, beatByte bk.1 j) else none

/-- The written bytes that lie in `lo … lo + len - 1`, by their offset from `lo`. -/
def bytesIn (lo len : Nat) (w : List (Nat × Byte)) : List (Nat × Byte) :=
  w.filterMap fun ab => if lo ≤ ab.1 ∧ ab.1 < lo + len then some (ab.1 - lo, ab.2) else none

/-- Word assembly (R6): the bytes written join the pending ones, a new byte replacing one at its position. Where every
position of the field is then present, the value is handed on and nothing stays pending. -/
def assemble (width : Nat) (pend written : List (Nat × Byte)) : List (Nat × Byte) × Option Nat :=
  let merged := (List.range width).filterMap fun p =>
    ((written.lookup p).orElse fun _ => pend.lookup p).map fun b => (p, b)
  if merged.length = width then ([], some (leVal (merged.map Prod.snd))) else (merged, none)

/-- The entry of key `k`. -/
def mapGet {α : Type} (l : List (Nat × α)) (k : Nat) : Option α := l.lookup k

/-- Set key `k`, keys rising. -/
def mapPut {α : Type} (k : Nat) (v : α) : List (Nat × α) → List (Nat × α)
  | [] => [(k, v)]
  | (k', v') :: l => if k < k' then (k, v) :: (k', v') :: l else if k = k' then (k, v) :: l else (k', v') :: mapPut k v l

/-- Remove key `k`. -/
def mapDel {α : Type} (k : Nat) (l : List (Nat × α)) : List (Nat × α) := l.filter fun kv => kv.1 != k

/-- Replace element `i` of a table by what `f` makes of it. -/
def upd {α : Type} {n : Nat} (v : Vector α n) (i : Fin n) (f : α → α) : Vector α n := v.set i (f v[i])

/-- A count that stops at `top`. -/
def satInc (top n : Nat) : Nat := min (n + 1) top

/-- Remove the element at position `i` of a list. -/
def dropAt {α : Type} (i : Nat) (l : List α) : List α := l.eraseIdx i

end Sys2Proof.Machine
end

