-- ==== Sys2Proof/Machine/Ops.lean ====
section
/-! DEFINITION. The shared operations: updates of one block's state, the clocks, event requests and requests to the
injection queue. -/

namespace Sys2Proof.Machine

/-! ## Updates of one block -/

def State.onPins (s : State) (f : Pins → Pins) : State := { s with pins := f s.pins }
def State.onLif (s : State) (f : Lif → Lif) : State := { s with lif := f s.lif }
def State.onRmn (s : State) (f : Rmn → Rmn) : State := { s with rmn := f s.rmn }
def State.onTdr (s : State) (f : Tdr → Tdr) : State := { s with tdr := f s.tdr }
def State.onCsv (s : State) (f : Vector Crane 32 → Vector Crane 32) : State := { s with csv := f s.csv }
def State.onRfm (s : State) (f : Rfm → Rfm) : State := { s with rfm := f s.rfm }
def State.onCvm (s : State) (f : Cvm → Cvm) : State := { s with cvm := f s.cvm }
def State.onTbs (s : State) (f : Tbs → Tbs) : State := { s with tbs := f s.tbs }
def State.onCcu (s : State) (f : Ccu → Ccu) : State := { s with ccu := f s.ccu }
def State.onRpw (s : State) (f : Rpw → Rpw) : State := { s with rpw := f s.rpw }

def State.onRing (s : State) (r : Fin 16) (f : Ring → Ring) : State :=
  s.onRmn fun m => { m with rings := upd m.rings r f }
def State.onSlot (s : State) (r : Fin 16) (f : HeldSlot → HeldSlot) : State :=
  s.onLif fun l => { l with slots := upd l.slots r f }
def State.onBuffer (s : State) (b : Fin 64) (f : Buffer → Buffer) : State :=
  s.onRmn fun m => { m with buffers := upd m.buffers b f }
def State.onTracker (s : State) (t : Fin 8) (f : Tracker → Tracker) : State :=
  s.onRmn fun m => { m with trackers := upd m.trackers t f }
def State.onEntry (s : State) (i : Fin 256) (f : Terminal → Terminal) : State :=
  s.onTdr fun d => { d with entries := upd d.entries i f }
def State.onCrane (s : State) (k : Fin 32) (f : Crane → Crane) : State := s.onCsv fun v => upd v k f
def State.onReefer (s : State) (i : Fin 2048) (f : Reefer → Reefer) : State :=
  s.onRfm fun m => { m with recs := upd m.recs i f }
def State.onBin (s : State) (b : Fin 64) (f : Bin → Bin) : State :=
  s.onCvm fun m => { m with bins := upd m.bins b f }

def State.ring (s : State) (r : Fin 16) : Ring := s.rmn.rings[r]
def State.slot (s : State) (r : Fin 16) : HeldSlot := s.lif.slots[r]
def State.buffer (s : State) (b : Fin 64) : Buffer := s.rmn.buffers[b]
def State.tracker (s : State) (t : Fin 8) : Tracker := s.rmn.trackers[t]
def State.entry (s : State) (i : Fin 256) : Terminal := s.tdr.entries[i]
def State.crane (s : State) (k : Fin 32) : Crane := s.csv[k]
def State.reefer (s : State) (i : Fin 2048) : Reefer := s.rfm.recs[i]
def State.bin (s : State) (b : Fin 64) : Bin := s.cvm.bins[b]

/-! ## Clocks -/

/-- The run clock, in microseconds (R152). -/
def State.now (s : State) : Nat := s.tbs.runClock

/-- Site time: the run clock plus the offset, modulo 2^64 (R153). -/
def State.site (s : State) : Word64 := BitVec.ofNat 64 s.tbs.runClock + s.tbs.offset

/-- The low 48 bits of a site time (R153). -/
def low48 (t : Word64) : Nat := t.toNat % 2 ^ 48

/-- A site time as the six bytes the part writes (11_formats_in_memory.md). -/
def siteBytes (t : Word64) : List Byte := leBytes 6 (low48 t)

/-! ## Requests -/

/-- Hand the report writer an event request (R183): block, kind, subject kind, subject and the three details. -/
def State.raise (s : State) (b : Block) (k : EventKind) (sk : SubjKind) (subject : Nat) (d0 d1 d2 : Int) : State :=
  let q : EventReq :=
    { block := b, kind := k, subjKind := sk, subject := BitVec.ofNat 32 subject, d0 := BitVec.ofInt 32 d0,
      d1 := BitVec.ofInt 64 d1, d2 := BitVec.ofInt 64 d2, ofCommand := false }
  s.onRpw fun r => { r with events := r.events ++ [q] }

/-- Block `b` asks for a place in the injection queue (R16). The request joins when `settle` finds room for it. -/
def State.ask (s : State) (b : Block) (op : InjOp) : State :=
  s.onLif fun l => { l with injWaiting := l.injWaiting ++ [(b, op)] }

/-- Block `b` waits for a place in the injection queue (R16). -/
def State.waits (s : State) (b : Block) : Bool := s.lif.injWaiting.any fun w => w.1 == b

/-- A request that the report writer makes while it takes an event (R183, R184). -/
def InjOp.ofEvent : InjOp → Bool
  | .eventRecord _ | .eventsLostRecord _ _ | .indices true => true
  | _ => false

/-- The report writer waits while it takes an event of block `b`, so `b` waits with it (R183). -/
def State.stalled (s : State) (b : Block) : Bool :=
  s.rpw.serving == some b && s.lif.injWaiting.any fun w => w.2.ofEvent

/-- Block `b` waits at a request of its own, or at an event that the report writer is taking from it (R16, R183; log 8). -/
def State.blocked (s : State) (b : Block) : Bool := s.waits b || s.stalled b

/-- Every event request of block `b` that the report writer has not taken finds a place of its own in the injection queue: where
this fails, a step that has just raised one waits behind it (R16, R96, R106; log 53). -/
def State.eventRoom (s : State) (b : Block) : Bool :=
  !s.waits .rpw &&
    decide (s.lif.injQueue.length + s.rpw.events.countP (fun q => q.block == b) ≤ Config.injectionDepth)

/-- What led from `before` to `s` raised an event of block `b` and must wait behind it (R96, R106). -/
def State.heldBehind (before s : State) (b : Block) : Bool :=
  decide (before.rpw.events.length < s.rpw.events.length) && !s.eventRoom b

/-- The part is RUNNING. -/
def State.running (s : State) : Bool := s.ccu.part == .running

/-- The part is RUNNING or SUSPENDING: the states in which work already started goes on (R173). -/
def State.working (s : State) : Bool := s.ccu.part == .running || s.ccu.part == .suspending

/-- The control area's first byte (R165). -/
def State.areaBase (s : State) : Nat := s.pins.caSel.toNat * 2 ^ 24

end Sys2Proof.Machine
end

