-- ==== Sys2Proof/Machine/Operands.lean ====
section
/-! DEFINITION. The fields of the records the part reads: Quayline headers, reefer entries and survey pairs in a capture
buffer, and the command record in the command ring shadow (11_formats_in_memory.md; R192). -/

namespace Sys2Proof.Machine

/-- The `n`-byte little-endian field at offset `o`. -/
def rdLe {k : Nat} (v : Vector Byte k) (o n : Nat) : Nat :=
  leVal ((List.range n).map fun j => v[o + j]?.getD 0)

/-! ## Quayline header (11, header beats 0 and 1) -/

abbrev Frame := Vector Byte 256

def frameMagic (f : Frame) : Nat := rdLe f 0 1
def frameVersion (f : Frame) : Nat := rdLe f 1 1
def frameTid (f : Frame) : BitVec 16 := BitVec.ofNat 16 (rdLe f 2 2)
def frameKind (f : Frame) : Nat := rdLe f 4 1
def frameDomain (f : Frame) : Nat := rdLe f 5 1
def frameSeq (f : Frame) : BitVec 16 := BitVec.ofNat 16 (rdLe f 6 2)
def frameLen (f : Frame) : Nat := rdLe f 8 2
def frameCount (f : Frame) : Nat := rdLe f 10 2
def frameSender (f : Frame) : Word := BitVec.ofNat 32 (rdLe f 12 4)
def frameControl (f : Frame) : BitVec 16 := BitVec.ofNat 16 (rdLe f 20 2)
def frameCell (f : Frame) : Nat := rdLe f 22 1
def frameMargin (f : Frame) : Int := signed 8 (rdLe f 23 1)
def framePos (f : Frame) : Nat := rdLe f 24 4
def frameEstop (f : Frame) : Bool := (rdLe f 28 2).testBit 2

/-- Ones'-complement addition of 16-bit words with end-around carry (R37, R93). -/
def ocAdd (a b : Nat) : Nat := (a + b) % 65536 + (a + b) / 65536

/-- The ones'-complement sum of the sixteen header words (R37). -/
def headerSum (f : Frame) : Nat := (List.range 16).foldl (fun acc j => ocAdd acc (rdLe f (2 * j) 2)) 0

/-! ## Reefer entry (11, reefer entry): entry `j` lies at offset 32 + 16 j -/

def entryTag (f : Frame) (j : Nat) : Word := BitVec.ofNat 32 (rdLe f (32 + 16 * j) 4)
def entrySetpoint (f : Frame) (j : Nat) : Int := signed 16 (rdLe f (36 + 16 * j) 2)
def entrySupply (f : Frame) (j : Nat) : Int := signed 16 (rdLe f (38 + 16 * j) 2)
def entryReturn (f : Frame) (j : Nat) : Int := signed 16 (rdLe f (40 + 16 * j) 2)
def entryMode (f : Frame) (j : Nat) : Byte := BitVec.ofNat 8 (rdLe f (42 + 16 * j) 1)
def entryAlarm (f : Frame) (j : Nat) : Byte := BitVec.ofNat 8 (rdLe f (43 + 16 * j) 1)
def entryFlags (f : Frame) (j : Nat) : Nat := rdLe f (44 + 16 * j) 1
def entryProfile (f : Frame) (j : Nat) : Nat := rdLe f (45 + 16 * j) 1
def entrySlot (f : Frame) (j : Nat) : BitVec 16 := BitVec.ofNat 16 (rdLe f (46 + 16 * j) 2)

/-! ## Survey pair: pair `j` lies at offset 32 + 2 j -/

def pairCell (f : Frame) (j : Nat) : Nat := rdLe f (32 + 2 * j) 1
def pairMargin (f : Frame) (j : Nat) : Int := signed 8 (rdLe f (33 + 2 * j) 1)

/-! ## Command record (11, command record) -/

abbrev Record := Vector Byte 64

/-- The commands by their code (11, command record); any other code is unknown (R180). -/
inductive CommandKind where
  | nop | setTime | adjustTime | sweepNow | registerTerminal | deregisterTerminal | bindCrane | unbindCrane | forceHold
  | releaseHold | addReefer | clearDose | retireReefer | resetBin | snapshotCoverage | unknown
  deriving DecidableEq, Repr

def commandOf (code : Nat) : CommandKind :=
  match code with
  | 0x00 => .nop
  | 0x01 => .setTime
  | 0x02 => .adjustTime
  | 0x03 => .sweepNow
  | 0x10 => .registerTerminal
  | 0x11 => .deregisterTerminal
  | 0x20 => .bindCrane
  | 0x21 => .unbindCrane
  | 0x22 => .forceHold
  | 0x23 => .releaseHold
  | 0x30 => .addReefer
  | 0x31 => .clearDose
  | 0x32 => .retireReefer
  | 0x40 => .resetBin
  | 0x41 => .snapshotCoverage
  | _ => .unknown

/-- The multi-byte fields of a command record: the completion time and the arguments of the code (11, command record). -/
def recordFields (k : CommandKind) : List (Nat × Nat) :=
  (2, 6) :: match k with
    | .setTime => [(8, 6)]
    | .adjustTime | .clearDose | .retireReefer => [(8, 4)]
    | .registerTerminal | .deregisterTerminal => [(8, 2)]
    | .bindCrane => [(10, 2), (12, 4), (18, 2)]
    | .addReefer => [(8, 4), (14, 2)]
    | .nop | .sweepNow | .unbindCrane | .forceHold | .releaseHold | .resetBin | .snapshotCoverage | .unknown => []

/-- The field that holds offset `o` of a record, its start and its width: a multi-byte one, or the byte alone. -/
def recordField (k : CommandKind) (o : Nat) : Nat × Nat :=
  ((recordFields k).find? fun f => f.1 ≤ o && o < f.1 + f.2).getD (o, 1)

/-- The record at the done index, in its slot of the command ring shadow (R178, R179). -/
def State.nextRecord (s : State) : Record := s.ccu.commandRing[Fin.ofNat 256 s.rpw.done.toNat]

/-- The optional bin of a byte: 0xFF absent; none where the byte is neither absent nor 0 to 63 (R54). -/
def optBinOf (b : Nat) : Option (Option (Fin 64)) :=
  if b = 255 then some none else if h : b < 64 then some (some ⟨b, h⟩) else none

/-- A number as an index below `n`, where it is one. -/
def finOf (n v : Nat) : Option (Fin n) := if h : v < n then some ⟨v, h⟩ else none

end Sys2Proof.Machine
end

