-- ==== Sys2Proof/Machine/Directory.lean ====
section
/-! DEFINITION. The terminal directory (03_terminal_directory.md) and the quay geometry it reads (R127, R128). -/

namespace Sys2Proof.Machine

/-! ## Quay geometry -/

/-- The bin of a gantry position under geometry `c`: absent before the origin and from the bin count on (R128). -/
def positionBin (c : Cfg) (p : Nat) : Option (Fin 64) :=
  if p < c.origin then none
  else
    let b := (p - c.origin) / c.binWidth
    if b < c.binCount then finOf 64 b else none

/-- A serving cell byte, where it names a usable cell: present and below the cell count (R51). -/
def usableCell (c : Cfg) (b : Nat) : Option (Fin 16) :=
  if b ≠ 255 ∧ b < c.cellCount then finOf 16 b else none

/-! ## Entries and attach counts -/

/-- The entry of a terminal id; 0 and 0xFFFF are never found (R46, R49, R56). -/
def State.findTerm (s : State) (id : BitVec 16) : Option (Fin 256) :=
  if id = 0 ∨ id = 0xFFFF then none
  else (List.finRange 256).find? fun i => (s.entry i).st != .free && (s.entry i).id == id

/-- The FREE entry with the lowest index (R50, R55). -/
def State.freeTermIndex (s : State) : Option (Fin 256) :=
  (List.finRange 256).find? fun i => (s.entry i).st == .free

/-- The LEARNED entry with the oldest last seen, the lowest index among equals (R55). -/
def State.oldestLearned (s : State) : Option (Fin 256) :=
  (List.finRange 256).foldl (fun best i =>
    if (s.entry i).st == .learned then
      match best with
      | none => some i
      | some j => if (s.entry i).lastSeen < (s.entry j).lastSeen then some i else some j
    else best) none

/-- The attach counts after a last cell changes from `old` to `new` (R47). -/
def attachMove (old new : Option (Fin 16)) (a : Vector Nat 16) : Vector Nat 16 :=
  if old = new then a
  else
    let left := match old with
      | none => a
      | some c => upd a c fun n => n - 1
    match new with
    | none => left
    | some d => upd left d fun n => n + 1

/-- Freeing an entry (R48): its attach count falls, every field is cleared. -/
def freeTerm (i : Fin 256) (s : State) : State :=
  s.onTdr fun d =>
    { d with entries := upd d.entries i fun _ => .reset, attach := attachMove d.entries[i].lastCell none d.attach }

/-! ## The directory step -/

/-- The entry kind of a frame kind (R50). -/
def kindOfFrame (k : Nat) : TermKind :=
  if k = 1 then .crane else if k = 3 then .reeferGateway else if k = 4 then .survey else .other

/-- The last bin of an entry after frame `f` (R52). -/
def newLastBin (c : Cfg) (e : Terminal) (f : Frame) : Option (Fin 64) :=
  match e.homeBin with
  | some b => some b
  | none => if e.kind = .crane ∧ frameKind f = 1 then positionBin c (framePos f) else e.lastBin

/-- The last cell of an entry after frame `f` (R51). -/
def newLastCell (c : Cfg) (e : Terminal) (f : Frame) : Option (Fin 16) :=
  (usableCell c (frameCell f)).orElse fun _ => e.lastCell

/-- A frame updates the entry it found or created (R51). -/
def touchTerm (i : Fin 256) (f : Frame) (t : Nat) (s : State) : State :=
  let c := s.ccu.cfg
  s.onTdr fun d =>
    let e := d.entries[i]
    let cell := newLastCell c e f
    { d with
      entries := upd d.entries i fun e =>
        { e with
          lastSeen := t
          frames := satInc Config.max32 e.frames
          lastCell := cell
          lastMargin := if frameMargin f = -128 then e.lastMargin else some (16 * frameMargin f)
          lastBin := newLastBin c e f }
      attach := attachMove e.lastCell cell d.attach }

/-- What the job steps see of an entry (R53). -/
def dirResult (i : Fin 256) (s : State) : DirResult :=
  let e := s.entry i
  { index := i, kind := e.kind, homeBin := e.homeBin, lastBin := e.lastBin, lastCell := e.lastCell, ctx := e.ctx }

/-- A new LEARNED entry for the sender of frame `f` of ring `r`, with TERMINAL_LEARNED (R50). -/
def learnTerm (i : Fin 256) (r : Fin 16) (f : Frame) (s : State) : State :=
  let k := kindOfFrame (frameKind f)
  (s.onEntry i fun _ => { Terminal.reset with st := .learned, id := frameTid f, kind := k }).raise
    .tdr .terminalLearned .terminal (frameTid f).toNat (termKindCode k) i.val r.val

/-- The directory step of frame `f` of ring `r`, dispatched at `t` (R49, R50, R53). -/
def dirStep (r : Fin 16) (f : Frame) (t : Nat) (s : State) : State × Option DirResult :=
  let id := frameTid f
  if id = 0 ∨ id = 0xFFFF then (s, none)
  else
    match s.findTerm id with
    | some i =>
      let s := touchTerm i f t s
      (s, some (dirResult i s))
    | none =>
      match s.freeTermIndex with
      | some i =>
        let s := touchTerm i f t (learnTerm i r f s)
        (s, some (dirResult i s))
      | none => (s.raise .tdr .directoryFull .terminal id.toNat (frameKind f) r.val 0, none)

/-! ## Commands -/

/-- The last bin of an entry after a registration with home bin `h` (R54). -/
def registeredLastBin (e : Terminal) (h : Option (Fin 64)) : Option (Fin 64) :=
  match h, e.homeBin with
  | some b, _ => some b
  | none, some _ => none
  | none, none => e.lastBin

/-- REGISTER_TERMINAL makes a new REGISTERED entry at index `i` (R55). -/
def newRegistered (i : Fin 256) (id : BitVec 16) (k : TermKind) (h : Option (Fin 64)) (s : State) : State :=
  s.onEntry i fun _ =>
    { Terminal.reset with
      st := .registered, id := id, kind := k, homeBin := h, lastBin := h, lastSeen := s.now }

/-- REGISTER_TERMINAL on a found entry (R54). -/
def reRegister (i : Fin 256) (k : TermKind) (h : Option (Fin 64)) (s : State) : State × Status :=
  let e := s.entry i
  if e.st = .registered ∧ e.ctx.isSome ∧ k ≠ .crane then (s, .inUse)
  else
    (s.onEntry i fun e =>
      { e with st := .registered, kind := k, homeBin := h, lastBin := registeredLastBin e h }, .done)

/-- REGISTER_TERMINAL for an id that is not found (R55). -/
def registerNew (id : BitVec 16) (k : TermKind) (h : Option (Fin 64)) (s : State) : State × Status :=
  match s.freeTermIndex with
  | some i => (newRegistered i id k h s, .done)
  | none =>
    match s.oldestLearned with
    | none => (s, .full)
    | some i =>
      let e := s.entry i
      let s := (freeTerm i s).raise .tdr .learnedEvicted .terminal e.id.toNat i.val e.frames id.toNat
      (newRegistered i id k h s, .done)

/-- REGISTER_TERMINAL (R54, R55): bytes 8–9 terminal id, 10 kind, 11 home bin. -/
def doRegister (q : Record) (s : State) : State × Status :=
  let id := BitVec.ofNat 16 (rdLe q 8 2)
  match termKindOf (rdLe q 10 1), optBinOf (rdLe q 11 1) with
  | some k, some h =>
    if id = 0 ∨ id = 0xFFFF then (s, .badArgument)
    else
      match s.findTerm id with
      | some i => reRegister i k h s
      | none => registerNew id k h s
  | _, _ => (s, .badArgument)

/-- DEREGISTER_TERMINAL (R56): bytes 8–9 terminal id. -/
def doDeregister (q : Record) (s : State) : State × Status :=
  match s.findTerm (BitVec.ofNat 16 (rdLe q 8 2)) with
  | none => (s, .notFound)
  | some i => if (s.entry i).ctx.isSome then (s, .inUse) else (freeTerm i s, .done)

/-! ## Aging -/

/-- A sweep visits entry `i` (R58). -/
def ageTerm (i : Fin 256) (s : State) : State :=
  let e := s.entry i
  let silence := s.now - e.lastSeen
  if e.st = .learned ∧ silence > s.ccu.cfg.learnAge * 60000000 then
    (freeTerm i s).raise .tdr .terminalAged .terminal e.id.toNat i.val (termKindCode e.kind)
      (min (silence / 1000000) Config.max32 : Nat)
  else s

/-- The number of entries in state `st` (R59). -/
def State.countTerms (s : State) (st : TermState) : Nat := s.tdr.entries.toList.countP fun e => e.st == st

end Sys2Proof.Machine
end

