-- ==== Sys2Proof/Machine/Coverage.lean ====
section
/-! DEFINITION. The coverage mapper (07_quay_coverage_map.md): samples, the estimator, cell states, bin evaluation,
aging, RESET_BIN and the content of snapshot rows. -/

namespace Sys2Proof.Machine

/-! ## Bin evaluation (R136 to R138) -/

/-- The cells below the cell count: those an evaluation considers. -/
def considered (c : Cfg) : List (Fin 16) := (List.finRange 16).filter fun i => i.val < c.cellCount

/-- The considered cells of bin `b` in state `st`. -/
def cellsIn (c : Cfg) (b : Bin) (st : CellState) : List (Fin 16) := (considered c).filter fun i => b.cells[i].st == st

/-- The hole flag: a considered cell is qualified and none is GOOD (R136). -/
def holeOf (c : Cfg) (b : Bin) : Bool := (cellsIn c b .good).isEmpty && !(cellsIn c b .weak).isEmpty

/-- The candidate set (R137). -/
def candidates (c : Cfg) (attach : Vector Nat 16) (b : Bin) : List (Fin 16) :=
  let good := cellsIn c b .good
  if c.loadLimit = 0 then good
  else
    let light := good.filter fun i => attach[i] < c.loadLimit
    if light.isEmpty then good else light

/-- The best candidate: the largest m, the lowest cell number among equals (R138); candidates come in rising order. -/
def bestOf (b : Bin) : List (Fin 16) → Option (Fin 16)
  | [] => none
  | i :: l =>
    match bestOf b l with
    | none => some i
    | some j => if b.cells[i].m ≥ b.cells[j].m then some i else some j

/-- The new preferred cell (R138). -/
def prefOf (c : Cfg) (b : Bin) (cands : List (Fin 16)) : Option (Fin 16) :=
  match bestOf b cands with
  | none => none
  | some best =>
    match b.pref with
    | none => some best
    | some p =>
      if p ∈ cands ∧ p ≠ best ∧ b.cells[best].m < b.cells[p].m + c.switchHyst then some p
      else some best

/-- The largest m among the WEAK considered cells (R151). -/
def largestWeak (c : Cfg) (b : Bin) : Int :=
  match (cellsIn c b .weak).map fun i => b.cells[i].m with
  | [] => 0
  | m :: l => l.foldl max m

/-- The hole event of an evaluation (R136, R151). -/
def holeEvent (b : Fin 64) (cause : EvalCause) (old : Bool) (c : Cfg) (row : Bin) (s : State) : State :=
  if holeOf c row ∧ !old then
    s.raise .cvm .binHole .bin b.val (cellsIn c row .weak).length (largestWeak c row) (evalCode cause)
  else if !holeOf c row ∧ old then
    let good := (cellsIn c row .good).length
    s.raise .cvm .binHoleCleared .bin b.val good (good + (cellsIn c row .weak).length) (evalCode cause)
  else s

/-- The preferred-cell event of an evaluation (R138, R151). -/
def prefEvent (b : Fin 64) (cause : EvalCause) (old new : Option (Fin 16)) (s : State) : State :=
  if old = new then s else s.raise .cvm .preferredChanged .bin b.val (optFin old) (optFin new) (evalCode cause)

/-- Bin `b` is evaluated (R136 to R138): its hole flag, then its preferred cell, with their events in that order. -/
def evalBin (b : Fin 64) (cause : EvalCause) (s : State) : State :=
  let c := s.ccu.cfg
  let row := s.bin b
  let pref := prefOf c row (candidates c s.tdr.attach row)
  prefEvent b cause row.pref pref
    (holeEvent b cause row.hole c row (s.onBin b fun row => { row with hole := holeOf c row, pref := pref }))

/-! ## Samples -/

/-- The number of binary digits of `n`, for `n` up to 255 (R133). -/
def bitLength (n : Nat) : Nat := (List.range 8).countP fun j => 2 ^ j ≤ n

/-- `d / 2^k` rounded half away from zero (R133; R79 with k = 3, R80 with k = 4). -/
def roundStep (d : Int) (k : Nat) : Int := d.sign * ((d.natAbs + 2 ^ (k - 1)) / 2 ^ k : Nat)

/-- The state of a cell after a fold (R134, R135), from its state before it and from `m` and `n` after it. -/
def cellState (c : Cfg) (before : CellState) (m : Int) (n : Nat) : CellState :=
  if n < c.minSamples then .sparse
  else
    match before with
    | .good => if m ≥ 16 * c.weakDb then .good else .weak
    | _ => if m ≥ 16 * c.goodDb then .good else .weak

/-- The smoothed margin after sample `x` (R133). -/
def foldMargin (c : Cfg) (cell : Cell) (x : Int) : Int :=
  if cell.n = 0 then x else cell.m + roundStep (x - cell.m) (min c.kcfg (bitLength cell.n))

/-- A sample folded into a cell at run time `t` (R133, R135). -/
def foldCell (c : Cfg) (x : Int) (t : Nat) (cell : Cell) : Cell :=
  let m := foldMargin c cell x
  let n := min (cell.n + 1) 255
  { m := m, n := n, last := t, st := cellState c cell.st m n }

/-- Fold a tested sample into cell (b, i), count it and evaluate the bin (R132, R133). -/
def foldSample (b : Fin 64) (i : Fin 16) (margin : Int) (cause : EvalCause) (s : State) : State :=
  let x := 16 * clampInt (-64) 63 margin
  evalBin b cause
    ((s.onBin b fun row => { row with cells := upd row.cells i (foldCell s.ccu.cfg x s.now) }).onCvm fun m =>
      { m with folded := satInc Config.max32 m.folded })

/-- The bin and cell of a sample that passes the tests of R132. -/
def sampleTarget (c : Cfg) (bin : Option Nat) (cell : Nat) (margin : Int) : Option (Fin 64 × Fin 16) :=
  match bin with
  | none => none
  | some b =>
    if b < c.binCount ∧ cell ≠ 255 ∧ cell < c.cellCount ∧ margin ≠ -128 then
      match finOf 64 b, finOf 16 cell with
      | some b, some i => some (b, i)
      | _, _ => none
    else none

/-- A sample offered by a frame or a penalty (R132). -/
def offerSample (bin : Option Nat) (cell : Nat) (margin : Int) (cause : EvalCause) (s : State) : State :=
  match sampleTarget s.ccu.cfg bin cell margin with
  | some (b, i) => foldSample b i margin cause s
  | none => s.onCvm fun m => { m with discarded := satInc Config.max32 m.discarded }

/-- The coverage job step of a frame, COVERAGE_EN being 1 (R130). -/
def coverageStep (f : Frame) (d : Option DirResult) (s : State) : State :=
  let header (bin : Option Nat) := offerSample bin (frameCell f) (frameMargin f) .sample s
  let home := d.bind fun d => d.homeBin
  if frameKind f = 1 then
    match d with
    | some d => header (d.lastBin.map fun b => b.val)
    | none => header ((positionBin s.ccu.cfg (framePos f)).map fun b => b.val)
  else if frameKind f = 4 then
    (List.range (frameCount f)).foldl
      (fun s j => offerSample (some (framePos f)) (pairCell f j) (pairMargin f j) .sample s) s
  else
    match home with
    | some b => header (some b.val)
    | none => s

/-- A penalty sample (R73, R131): taken while COVERAGE_EN is 1. -/
def penaltySample (bin : Option (Fin 64)) (cell : Option (Fin 16)) (s : State) : State :=
  match bin, cell with
  | some b, some i =>
    if s.ccu.cfg.coverageEn then offerSample (some b.val) i.val s.ccu.cfg.penaltyMargin .penalty s else s
  | _, _ => s

/-! ## Aging, RESET_BIN and the enable -/

/-- A cell that a sweep finds not heard within AGE_LIMIT (R140). -/
def cellStale (c : Cfg) (t : Nat) (cell : Cell) : Bool := cell.n > 0 && t - cell.last > c.ageLimit * 60000000

/-- A sweep visits bin `b` while COVERAGE_EN is 1 (R140). -/
def ageBin (b : Fin 64) (s : State) : State :=
  let c := s.ccu.cfg
  if (s.bin b).cells.toList.any (cellStale c s.now) then
    evalBin b .aging (s.onBin b fun row =>
      { row with cells := row.cells.map fun cell => if cellStale c s.now cell then .reset else cell })
  else s

/-- RESET_BIN (R142): byte 8 bin. -/
def doResetBin (q : Record) (s : State) : State × Status :=
  let b := rdLe q 8 1
  if b < s.ccu.cfg.binCount then
    match finOf 64 b with
    | some b =>
      (evalBin b .reset (s.onBin b fun row => { row with cells := Vector.replicate 16 .reset }), .done)
    | none => (s, .badArgument)
  else (s, .badArgument)

/-- COVERAGE_EN changes from 0 to 1: every bin is evaluated (R148). -/
def evalAll (s : State) : State := (List.finRange 64).foldl (fun s b => evalBin b .enable s) s

/-! ## Snapshot rows and status counts -/

/-- The age of a cell in a snapshot record (R144). -/
def cellAge (t : Nat) (cell : Cell) : Nat := if cell.n = 0 then 65535 else min ((t - cell.last) / 1000000) 65535

/-- The snapshot record of cell `i` of a bin (R144; 11, snapshot record). -/
def cellBytes (t : Nat) (attach : Vector Nat 16) (row : Bin) (i : Fin 16) : List Byte :=
  let cell := row.cells[i]
  intBytes 2 cell.m ++ leBytes 1 cell.n ++ leBytes 1 (cellCode cell.st) ++ leBytes 2 (cellAge t cell) ++
    satBytes 1 attach[i] ++
    leBytes 1 ((if row.pref = some i then 1 else 0) + (if row.hole then 2 else 0)) ++ leBytes 8 0

/-- The row of bin `b`, taken whole (R144). -/
def State.rowBytes (s : State) (b : Fin 64) : List Byte :=
  (List.finRange 16).flatMap (cellBytes s.now s.tdr.attach (s.bin b))

/-- The bins below the bin count (R150). -/
def State.binsInUse (s : State) : List Bin := s.cvm.bins.toList.take s.ccu.cfg.binCount

/-- The cells in state `st` among the bins and cells in use (R150). -/
def State.countCells (s : State) (st : CellState) : Nat :=
  (s.binsInUse.map fun row => (cellsIn s.ccu.cfg row st).length).sum

end Sys2Proof.Machine
end

