-- ==== Sys2Proof/Machine/Reefer.lean ====
section
/-! DEFINITION. The reefer monitor (06_reefer_monitoring.md) and the report writer's digest ring (R187): the table, the
thermal dose, condition, presence, retirement, the reefer commands, digests and their drain. -/

namespace Sys2Proof.Machine

/-! ## The table (R102) -/

/-- The set of a tag (R102). -/
def setOf (t : Word) : Nat := (t ^^^ (t >>> 9) ^^^ (t >>> 18) ^^^ (t >>> 27)).toNat % 512

/-- The table index of way `w` of set `n` (R102). -/
def wayIndex (n : Nat) (w : Fin 4) : Fin 2048 := Fin.ofNat 2048 (4 * n + w.val)

/-- The table indices of the four ways of a tag's set, by rising way. -/
def waysOf (t : Word) : List (Fin 2048) := (List.finRange 4).map (wayIndex (setOf t))

/-- The IN_USE record of a tag (R102). -/
def State.findReefer (s : State) (t : Word) : Option (Fin 2048) :=
  (waysOf t).find? fun i => (s.reefer i).used && (s.reefer i).tag == t

/-- The lowest FREE way of a tag's set (R102). -/
def State.freeWay (s : State) (t : Word) : Option (Fin 2048) := (waysOf t).find? fun i => !(s.reefer i).used

/-- The profile of a record (R105). -/
def State.profileOf (s : State) (i : Fin 2048) : Profile := s.ccu.cfg.profiles[(s.reefer i).profile]

/-- Raise a reefer event on tag `t` (R126). -/
def reeferEvent (t : Word) (k : EventKind) (d0 d1 d2 : Int) (s : State) : State := s.raise .rfm k .tag t.toNat d0 d1 d2

/-! ## Digests (R122 to R125, R187) -/

/-- The free slots of the digest ring (R187). -/
def State.digestFree (s : State) : Nat := Config.outputRingSize - (s.rpw.dgProd - s.rpw.dgCons).toNat

/-- The digest record of a reefer record (R125; 11, digest record). -/
def digestBytes (r : Reefer) (triggers : Nat) (retired : Bool) (site : Word64) : List Byte :=
  leBytes 4 r.tag.toNat ++ leBytes 2 r.gateway.toNat ++ leBytes 2 r.gwSlot.toNat ++ leBytes 1 (optFin r.gwHomeBin) ++
    leBytes 1 (condCode r.cond + (if r.missing then 4 else 0) + 8 * missCode r.reason +
      (if r.mode.isSome then 32 else 0)) ++
    leBytes 1 ((if r.sensorFault then 1 else 0) + (if r.off then 2 else 0) + (if r.defrost then 4 else 0) +
      (if retired then 8 else 0) + 16 * r.profile.val) ++
    [r.mode.getD 0, r.alarm] ++ satBytes 1 triggers ++ intBytes 2 (optTemp r.setpoint) ++
    intBytes 2 (optTemp r.heldTemp) ++ satBytes 2 r.excess ++ satBytes 3 r.dose ++ satBytes 3 r.unobserved ++
    siteBytes site

/-- The report writer takes a digest request into a free slot (R187): the record is taken as it stands. Dp rises as the
record joins the injection queue; the slot is not tested again then, the model's choice (log 63). -/
def writeDigest (i : Fin 2048) (triggers : Nat) (retired : Bool) (s : State) : State :=
  (s.ask .rpw (.digestRecord (digestBytes (s.reefer i) triggers retired s.site))).ask .rpw (.indices false)

/-- One record fewer owes a digest (R118, R124); the drain becomes IDLE when none does. -/
def decPending (s : State) : State :=
  s.onRfm fun m =>
    { m with pendingCount := m.pendingCount - 1, draining := m.draining && !(m.pendingCount - 1 == 0) }

/-- A digest trigger on record `i` (R123). -/
def trigger (i : Fin 2048) (s : State) : State :=
  if (s.reefer i).pending then s.onReefer i fun r => { r with triggers := satInc 255 r.triggers }
  else if s.digestFree ≥ 1 then writeDigest i 1 false s
  else
    (s.onReefer i fun r => { r with pending := true, triggers := 1 }).onRfm fun m =>
      { m with pendingCount := m.pendingCount + 1 }

/-- The digest drain starts when it is IDLE and a digest is owed (R124). -/
def startDrain (s : State) : State :=
  if !s.rfm.draining ∧ s.rfm.pendingCount > 0 then s.onRfm fun m => { m with draining := true } else s

/-- The drain examines the record at its cursor (R124). -/
def drainStep (s : State) : State :=
  let i := s.rfm.cursor
  let next (s : State) : State := s.onRfm fun m => { m with cursor := m.cursor + 1 }
  if (s.reefer i).used ∧ (s.reefer i).pending then
    if s.digestFree ≥ 1 then
      decPending (next ((writeDigest i (s.reefer i).triggers false s).onReefer i fun r =>
        { r with pending := false, triggers := 0 }))
    else s.onRfm fun m => { m with draining := false }
  else next s

/-! ## The dose (R108, R109) -/

/-- Charge the interval from the dose clock to `t` (R108, R109). -/
def charge (p : Profile) (t : Nat) (r : Reefer) : Reefer :=
  match r.doseClock with
  | none => { r with doseClock := some t }
  | some clock =>
    let elapsed := (t - clock) / 1000000
    let counted := min elapsed p.holdCap
    let product := r.excess * counted + r.residue
    { r with
      unobserved := min (r.unobserved + (elapsed - counted)) Config.max32
      dose := min (r.dose + product / 60) 16777215
      residue := product % 60
      doseClock := some (clock + elapsed * 1000000) }

/-- The excess of sample `x` over the tolerance band around setpoint `sp` (R111). -/
def excessOf (p : Profile) (sp x : Int) : Nat := (max 0 (x - (sp + p.tolHi)) + max 0 ((sp - p.tolLo) - x)).toNat

/-- The situation of an entry (R110): OFF and DEFROST, and the temperature chosen. -/
def situation (f : Frame) (j : Nat) : Bool × Bool × Option Int :=
  let mode := entryMode f j
  if !(entryFlags f j).testBit 0 ∨ mode = 0 then (true, false, some (entryReturn f j))
  else if mode = 3 then (false, true, none)
  else (false, false, some (entrySupply f j))

/-- The new sample of an entry: the temperature chosen, if it is valid (R110). -/
def sampleOf (f : Frame) (j : Nat) : Option Int :=
  match (situation f j).2.2 with
  | none => none
  | some x => if (entryFlags f j).testBit 1 ∧ -500 ≤ x ∧ x ≤ 600 then some x else none

/-- SENSOR_FAULT after an entry (R110). -/
def faultOf (f : Frame) (j : Nat) : Bool :=
  match (situation f j).2.2 with
  | none => !(entryFlags f j).testBit 1
  | some _ => (sampleOf f j).isNone

/-- Stage 5: the setpoint, the flags, the mode and the sample (R110, R111). -/
def takeSample (p : Profile) (f : Frame) (j : Nat) (r : Reefer) : Reefer :=
  let sp := clampInt (-400) 300 (entrySetpoint f j)
  let q := situation f j
  let r := { r with setpoint := some sp, off := q.1, defrost := q.2.1, sensorFault := faultOf f j, mode := some (entryMode f j) }
  match sampleOf f j with
  | none => r
  | some x => { r with heldTemp := some x, excess := excessOf p sp x }

/-! ## Condition and presence -/

/-- The condition after an evaluation (R112). -/
def nextCond (p : Profile) (r : Reefer) : Condition :=
  match r.cond with
  | .breach => .breach
  | _ => if r.dose ≥ p.breachDose then .breach else if r.dose ≥ p.warnDose then .warn else .normal

/-- The condition of record `i` is evaluated, with its event (R112). -/
def evalCond (p : Profile) (i : Fin 2048) (s : State) : State :=
  let r := s.reefer i
  let c := nextCond p r
  let s := s.onReefer i fun r => { r with cond := c }
  if c = r.cond then s
  else
    match c with
    | .breach => reeferEvent r.tag .reeferBreach r.dose p.breachDose r.profile.val s
    | .warn => reeferEvent r.tag .reeferWarn r.dose p.warnDose r.profile.val s
    | .normal => s

/-- Whole seconds of `us` microseconds (R113, R115). -/
def seconds (us : Nat) : Nat := us / 1000000

/-- Stage 7: presence, alarm and bookkeeping (R113). That REEFER_ALARM carries the mode that the entry brings is the model's
choice (log 48). -/
def heard (i : Fin 2048) (f : Frame) (j : Nat) (t : Nat) (s : State) : State :=
  let r := s.reefer i
  let s := if r.missing then
      reeferEvent r.tag .reeferBack (min (seconds (t - r.lastReport)) Config.max32) (missCode r.reason) r.gateway.toNat
        (s.onReefer i fun r => { r with missing := false, reason := none })
    else s
  let alarm := entryAlarm f j
  let s := if alarm ≠ 0 ∧ alarm ≠ r.alarm then
      reeferEvent r.tag .reeferAlarm alarm.toNat (entryMode f j).toNat r.gateway.toNat s
    else s
  s.onReefer i fun r =>
    { r with alarm := alarm, lastReport := t, reports := satInc Config.max32 r.reports }

/-! ## Report entries (R106, R107) -/

/-- A new record (R107, R121): its fields but for those its creator sets. -/
def newReefer (t : Word) (profile : Fin 8) (gateway : BitVec 16) : Reefer :=
  { Reefer.reset with used := true, tag := t, profile := profile, gateway := gateway }

/-- The profile byte of an entry, where it names one (R107). -/
def profileByte (b : Nat) : Option (Fin 8) := finOf 8 b

/-- DEFAULT_PROFILE (R105). -/
def State.defaultProfile (s : State) : Fin 8 := Fin.ofNat 8 s.ccu.cfg.defaultProfile

/-- What an entry triggers on (R122): a change of condition, presence, flags, mode or alarm code, or its turn under
DIGEST_PERIOD. -/
def reportTriggers (period : Nat) (before after : Reefer) : Bool :=
  before.cond != after.cond || before.missing != after.missing || before.sensorFault != after.sensorFault ||
    before.off != after.off || before.defrost != after.defrost || before.mode != after.mode ||
    before.alarm != after.alarm || (period != 0 && after.reports != 0 && after.reports % period == 0)

/-- Stages 1 to 7 on the found or created record `i` (R107). That the gateway id and the mode are replaced by the entry's before
the events of stages 5 and 7, which carry the new ones, is the model's choice (log 48). REEFER_SENSOR carries the flags that the
entry names (R126, R192). -/
def processEntry (i : Fin 2048) (f : Frame) (j : Nat) (home : Option (Fin 64)) (t : Nat) (s : State) : State :=
  let p := s.profileOf i
  let before := s.reefer i
  let s := s.onReefer i fun r =>
    takeSample p f j { charge p t r with gateway := frameTid f, gwHomeBin := home, gwSlot := entrySlot f j }
  let s := if (s.reefer i).sensorFault ∧ !before.sensorFault then
      reeferEvent before.tag .reeferSensor (entryMode f j).toNat (entryFlags f j % 4) (optTemp (situation f j).2.2) s
    else s
  heard i f j t (evalCond p i s)

/-- Entry `j` of a report frame of ring `r` dispatched at `t` (R106, R107): the state after stages 1 to 7, and the
record on which a digest is triggered (R122). -/
def reeferEntry (r : Fin 16) (f : Frame) (home : Option (Fin 64)) (t : Nat) (j : Nat) (s : State) :
    State × Option (Fin 2048) :=
  let tag := entryTag f j
  let gw := frameTid f
  if tag = 0 then (s, none)
  else
    match s.findReefer tag with
    | some i =>
      let s := s.onReefer i fun q => { q with profile := (profileByte (entryProfile f j)).getD q.profile }
      let before := s.reefer i
      let s := processEntry i f j home t s
      (s, if reportTriggers s.ccu.cfg.digestPeriod before (s.reefer i) then some i else none)
    | none =>
      match s.freeWay tag with
      | none => (reeferEvent tag .reeferTableFull (setOf tag) gw.toNat r.val s, none)
      | some i =>
        let profile := (profileByte (entryProfile f j)).getD s.defaultProfile
        let s := reeferEvent tag .reeferNew profile.val gw.toNat 1 (s.onReefer i fun _ => newReefer tag profile gw)
        (processEntry i f j home t s, some i)

/-! ## Retirement and sweep visits -/

/-- A record is retired (R118); `cause` is 1 AGE, 2 COMMAND. -/
def retire (i : Fin 2048) (cause : Nat) (s : State) : State :=
  let r := s.reefer i
  let written : Bool := s.digestFree ≥ 1
  let s := if written then writeDigest i (satInc 255 r.triggers) true s else s
  let s := if r.pending then decPending s else s
  reeferEvent r.tag .reeferRetired cause r.dose (Config.retireDigestWord written).toNat
    (s.onReefer i fun _ => .reset)

/-- The missing limit of a profile, in microseconds (R115). -/
def missingLimit (p : Profile) : Nat := p.interval * p.missFactor * 1000000

/-- The grid speaks for COVERAGE: the second test of R116, on the gateway's entry. -/
def coveragePoor (s : State) (e : Terminal) : Bool :=
  let c := s.ccu.cfg
  match e.homeBin, e.lastCell with
  | some b, some i =>
    c.coverageEn && b.val < c.binCount && i.val < c.cellCount &&
      ((s.bin b).cells[i].st == .weak || (s.bin b).hole ||
        match e.lastMargin with
        | none => false
        | some m => m < 16 * c.weakDb)
  | _, _ => false

/-- Why a record goes MISSING, with missing limit `limit` (R116). -/
def State.missReason (s : State) (gateway : BitVec 16) (limit : Nat) : MissReason :=
  match s.findTerm gateway with
  | none => .gatewaySilent
  | some g =>
    if s.now - (s.entry g).lastSeen > limit then .gatewaySilent
    else if coveragePoor s (s.entry g) then .coverage else .reeferSilent

/-- A REPORTING record beyond its limit goes MISSING (R115). -/
def goMissing (p : Profile) (i : Fin 2048) (s : State) : State :=
  let r := s.reefer i
  if !r.missing ∧ s.now - r.lastReport > missingLimit p then
    let why := s.missReason r.gateway (missingLimit p)
    reeferEvent r.tag .reeferMissing (missCode (some why)) (seconds (s.now - r.lastReport)) r.gateway.toNat
      (s.onReefer i fun r => { r with missing := true, reason := some why })
  else s

/-- A sweep visits record `i` while REEFER_EN is 1 (R114). -/
def visitReefer (i : Fin 2048) (s : State) : State :=
  let r := s.reefer i
  let age := s.ccu.cfg.retireAge
  if !r.used then s
  else if age ≠ 0 ∧ s.now - r.lastReport > age * 3600000000 then retire i 1 s
  else
    let p := s.profileOf i
    let s := evalCond p i (goMissing p i s)
    let after := s.reefer i
    if r.missing ≠ after.missing ∨ r.cond ≠ after.cond then trigger i s else s

/-! ## Commands -/

/-- ADD_REEFER (R121): bytes 8–11 tag; 12 profile; 14–15 gateway id. -/
def doAddReefer (q : Record) (s : State) : State × Status :=
  let tag := BitVec.ofNat 32 (rdLe q 8 4)
  let pb := rdLe q 12 1
  let gw := BitVec.ofNat 16 (rdLe q 14 2)
  if tag = 0 ∨ (8 ≤ pb ∧ pb ≠ 255) then (s, .badArgument)
  else if (s.findReefer tag).isSome then (s, .exists')
  else
    match s.freeWay tag with
    | none => (s, .full)
    | some i =>
      let profile := (profileByte pb).getD s.defaultProfile
      let s := s.onReefer i fun _ => { newReefer tag profile gw with lastReport := s.now }
      (trigger i (reeferEvent tag .reeferNew profile.val gw.toNat 2 s), .done)

/-- CLEAR_DOSE (R119): bytes 8–11 tag. -/
def doClearDose (q : Record) (s : State) : State × Status :=
  let tag := BitVec.ofNat 32 (rdLe q 8 4)
  if tag = 0 then (s, .badArgument)
  else
    match s.findReefer tag with
    | none => (s, .notFound)
    | some i =>
      (trigger i (s.onReefer i fun r => { r with dose := 0, residue := 0, unobserved := 0, cond := .normal }), .done)

/-- RETIRE_REEFER (R120): bytes 8–11 tag. -/
def doRetire (q : Record) (s : State) : State × Status :=
  let tag := BitVec.ofNat 32 (rdLe q 8 4)
  if tag = 0 then (s, .badArgument)
  else
    match s.findReefer tag with
    | none => (s, .notFound)
    | some i => (retire i 2 s, .done)

/-- The records that satisfy `p` (R104). -/
def State.countReefers (s : State) (p : Reefer → Bool) : Nat := s.rfm.recs.toList.countP fun r => r.used && p r

end Sys2Proof.Machine
end

