-- ==== Sys2Proof/Machine/Report.lean ====
section
/-! DEFINITION. The report writer (10_commands_events_and_the_attention_line.md): the command executor, the event ring
with its loss rules, and the index values the host hands back. -/

namespace Sys2Proof.Machine

/-! ## The command executor (R178 to R182) -/

/-- A record is in progress (R179). -/
def State.inProgress (s : State) : Bool := s.rpw.exec != .idle

/-- The status bytes of a command record: code and completion time (R181; 11, command record, bytes 1 to 7). -/
def statusBytes (st : Status) (site : Word64) : List Byte := leBytes 1 (statusCode st) ++ siteBytes site

/-- An event that the command in progress raised has not been taken yet (R180). -/
def State.eventsOwed (s : State) : Bool := s.rpw.events.any fun q => q.ofCommand

/-- The command in progress has its result and its events are taken: the status write is requested, with site time read
now (R181 step 1; log 10). -/
def writeStatus (s : State) : State :=
  match s.rpw.result with
  | some st =>
    if s.rpw.exec = .executing ∧ !s.eventsOwed then
      s.ask .rpw (.commandStatus (s.rpw.done.toNat % 256) (statusBytes st s.site))
    else s
  | none => s

/-- The command in progress reaches status `st` (R180, R181). -/
def completeCommand (st : Status) (s : State) : State := writeStatus (s.onRpw fun r => { r with result := some st })

/-- The event requests beyond the first `n` take mark `f`. -/
def markEvents (f : EventReq → EventReq) (n : Nat) (s : State) : State :=
  s.onRpw fun r => { r with events := r.events.take n ++ (r.events.drop n).map f }

/-- The events beyond the first `n` were raised by the command in progress (log 10). -/
def markCommandEvents (n : Nat) (s : State) : State := markEvents (fun q => { q with ofCommand := true }) n s

/-- The block that carries out a command of kind `k`, by its owning rule (R180). -/
def CommandKind.owner (k : CommandKind) : Block :=
  match k with
  | .nop | .unknown => .rpw
  | .setTime | .adjustTime | .sweepNow => .tbs
  | .registerTerminal | .deregisterTerminal => .tdr
  | .bindCrane | .unbindCrane | .forceHold | .releaseHold => .csv
  | .addReefer | .clearDose | .retireReefer => .rfm
  | .resetBin | .snapshotCoverage => .cvm

/-- A command of the reefer job (R180). -/
def CommandKind.ofReefer (k : CommandKind) : Bool := k == .addReefer || k == .clearDose || k == .retireReefer

/-- The executor can take a record of kind `k` now (R179; log 11): neither it nor the block that carries the command out waits
(R16; log 8). A reefer command waits while the reefer monitor is in the middle of a frame (log 12). -/
def State.commandDue (s : State) (k : CommandKind) : Bool :=
  !s.pins.inReset && s.rpw.exec == .idle && s.running && s.rpw.prod != s.rpw.done && !s.waits .rpw && !s.waits k.owner &&
    (s.rmn.handling.isNone || !k.ofReefer) && commandOf (rdLe s.nextRecord 0 1) == k

/-- A record is taken and decided (R179, R180): `enabled` is the command's job enable, `body` its owning rule. -/
def runCommand (enabled : Bool) (body : Record → State → State × Status) (s : State) : State :=
  let q := s.nextRecord
  let s := s.onRpw fun r => { r with exec := .executing, result := none }
  if enabled then
    let n := s.rpw.events.length
    let (s, st) := body q s
    completeCommand st (markCommandEvents n s)
  else completeCommand .jobDisabled s

/-! ## Taking events (R183 to R185) -/

/-- The event record of a request taken at site time `t` (11, event record). -/
def eventBytes (q : EventReq) (t : Word64) : List Byte :=
  leBytes 1 (eventCode q.kind) ++ leBytes 1 (subjKindCode q.subjKind) ++ siteBytes t ++ leBytes 4 q.subject.toNat ++
    leBytes 4 q.d0.toNat ++ leBytes 8 q.d1.toNat ++ leBytes 8 q.d2.toNat

/-- The EVENTS_LOST record that carries `count` and its kinds (R184). -/
def lostBytes (count : Nat) (first last : Option EventKind) (t : Word64) : List Byte :=
  leBytes 1 (eventCode .eventsLost) ++ leBytes 1 (subjKindCode .part) ++ siteBytes t ++ leBytes 4 0 ++
    satBytes 4 count ++ leBytes 8 (lostKindCode first) ++ leBytes 8 (lostKindCode last)

/-- The event ring's free count (R183). -/
def State.eventFree (s : State) : Nat := Config.outputRingSize - (s.rpw.evProd - s.rpw.evCons).toNat

/-- An event is lost (R184). -/
def loseEvent (k : EventKind) (r : Rpw) : Rpw :=
  { r with
    lost := satInc Config.max32 r.lost
    firstLost := if r.lost = 0 then some k else r.firstLost
    lastLost := some k }

/-- The record of one event joins after those asked before it; E rises as it joins, and the section follows (R183). -/
def askEvent (bytes : List Byte) (s : State) : State :=
  (s.ask .rpw (.eventRecord bytes)).ask .rpw (.indices true)

/-- The EVENTS_LOST record is asked for, with the site time at which the event behind it is taken (log 50); `thenLose`: that
event finds no room (R184). -/
def askLost (thenLose : Option EventKind) (s : State) : State :=
  (s.ask .rpw (.eventsLostRecord (lostBytes s.rpw.lost s.rpw.firstLost s.rpw.lastLost s.site) thenLose)).ask .rpw
    (.indices true)

/-- A taken event after the indices are set, by the table of R184. That an event lost at a saturated lost count, which it leaves
unchanged, has the section written all the same (R189) is the model's choice (log 60). The free count
is the one at this moment, and a record that then waits for the injection queue is not tested again, the model's choice
(log 63). -/
def recordEvent (q : EventReq) (s : State) : State :=
  if s.eventFree = 0 then (s.onRpw (loseEvent q.kind)).ask .rpw (.indices true)
  else if s.rpw.lost = 0 then askEvent (eventBytes q s.site) s
  else if s.eventFree = 1 then askLost (some q.kind) s
  else askEvent (eventBytes q s.site) (askLost none s)

/-- A taken event before the indices are set joins the early event list, or is counted (R185). -/
def recordEarly (q : EventReq) (s : State) : State :=
  s.onRpw fun r =>
    if r.early.length < Config.earlyDepth then { r with early := r.early ++ [(q, s.site)] }
    else
      { r with
        earlyLoss := satInc Config.max32 r.earlyLoss
        earlyFirst := if r.earlyLoss = 0 then some q.kind else r.earlyFirst
        earlyLast := some q.kind }

/-- The oldest request of block `b` (R183). -/
def State.oldestEvent (s : State) (b : Block) : Option EventReq := s.rpw.events.find? fun q => q.block == b

/-- The report writer takes request `q`, the oldest of block `b` (R183); where it was the last one that a finished command
raised, the command's status write follows (R180, R181). -/
def takeEvent (b : Block) (q : EventReq) (s : State) : State :=
  let s := s.onRpw fun r => { r with events := r.events.eraseP fun q => q.block == b, serving := some b }
  let s := if s.rpw.indicesSet then recordEvent q s else recordEarly q s
  if q.ofCommand then writeStatus s else s

/-- The report writer can take a request of block `b` now (R183). -/
def State.eventDue (s : State) (b : Block) : Bool :=
  !s.pins.inReset && !s.waits .rpw && (s.oldestEvent b).isSome

/-! ## Index values (R178, R186, R188) -/

/-- An assembled command producer value (R178). -/
def commandProducer (v : Word) (s : State) : State :=
  let d := s.rpw.done
  if (v - d).toNat ≤ Config.commandRingSize ∧ (s.inProgress → v ≠ d) then s.onRpw fun r => { r with prod := v }
  else s.raise .rpw .commandIndexInvalid .part 0 v.toNat d.toNat s.rpw.prod.toNat

/-- An assembled event consumer value (R186). -/
def eventConsumer (v : Word) (s : State) : State :=
  if (s.rpw.evProd - v).toNat > Config.outputRingSize then
    s.raise .rpw .indexInvalid .outputRing 0 v.toNat s.rpw.evProd.toNat s.rpw.evCons.toNat
  else s.onRpw fun r => { r with evCons := v }

/-- The report writer reports an advance to the reefer monitor (R124, R188). -/
def digestAdvance (s : State) : State :=
  if s.working then startDrain s
  else if s.ccu.part = .suspended ∧ !s.rfm.draining ∧ s.rfm.pendingCount > 0 then
    s.onRfm fun m => { m with startKept := true }
  else s

/-- An assembled digest consumer value (R188). -/
def digestConsumer (v : Word) (s : State) : State :=
  let old := s.rpw.dgCons
  let used := (s.rpw.dgProd - old).toNat
  if (s.rpw.dgProd - v).toNat > Config.outputRingSize then
    s.raise .rpw .indexInvalid .outputRing 1 v.toNat s.rpw.dgProd.toNat old.toNat
  else
    let s := s.onRpw fun r => { r with dgCons := v }
    if 1 ≤ (v - old).toNat ∧ (v - old).toNat ≤ used then digestAdvance s else s

/-- An index value is handed to the report writer: 0 command producer, 1 event consumer, 2 digest consumer (R166). -/
def handIndex (w : Fin 3) (v : Word) (s : State) : State :=
  match w with
  | 0 => commandProducer v s
  | 1 => eventConsumer v s
  | 2 => digestConsumer v s

end Sys2Proof.Machine
end

