-- ==== Sys2Proof/Machine/HeldWrite.lean ====
section
/-! DEFINITION. The link interface's held-write slots and the responses of the U-link (R8 to R13, R19). -/

namespace Sys2Proof.Machine

/-- The four bytes of an index word. -/
def wordBytes (v : Word) : Assembly := (leBytes 4 v.toNat).zipIdx.map fun bp => (bp.2, bp.1)

/-- Bytes at their positions from offset `off` of a beat, with their strobes. -/
def beatAt (off : Nat) (a : Assembly) : Beat :=
  { data := a.foldl (fun d pb => d ||| BitVec.ofNat 128 (pb.2.toNat * 256 ^ (off + pb.1))) 0,
    strobes := a.foldl (fun m pb => m ||| BitVec.ofNat 16 (2 ^ (off + pb.1))) 0 }

/-! ## Responses -/

/-- A response leaves on the U-link (R2). -/
def State.respond (s : State) (i : Fin 16) (ok : Bool) (data : List (BitVec 128)) : State :=
  s.onLif fun l => { l with uOut := l.uOut ++ [{ initiator := i, ok := ok, data := data }] }

/-- A part of held transaction `id` has not been answered: a slot still withholds it, or a transaction that concerns it
waits on the forward path or at memory (R9). -/
def State.heldOpen (s : State) (id : Nat) : Bool :=
  s.lif.slots.toList.any (fun sl => sl.withheld.contains id || sl.joined.contains id) ||
    s.lif.forwardPath.any (fun t => t.held.contains id) || s.lif.fwdInFlight.any (fun t => t.held.contains id)

/-- Memory has answered a part of held transaction `id`; its response is given once every part is answered, ERROR if any
was (R9, R19). -/
def answerHeld (ok : Bool) (id : Nat) (s : State) : State :=
  let s := s.onLif fun l =>
    { l with heldTxns := l.heldTxns.map fun h => if h.id = id then { h with err := h.err || !ok } else h }
  if s.heldOpen id then s
  else
    match s.lif.heldTxns.find? fun h => h.id == id with
    | none => s
    | some h =>
      (s.onLif fun l => { l with heldTxns := l.heldTxns.filter fun h => h.id != id }).respond h.initiator (!h.err) []

/-! ## Releases -/

/-- Another ring whose slot holds writes to the same producer word (R8). -/
def State.sharing (s : State) (r : Fin 16) : Option (Fin 16) :=
  (List.finRange 16).find? fun r' =>
    r' != r && (s.ring r').desc.prodAddr == (s.ring r).desc.prodAddr && (s.slot r').status != .empty

/-- The released write of ring `r`'s slot, carrying `bytes` of the producer word (R11, R12). That a write released without
commit carries the initiator of the most recent held write is the model's choice (log 46). -/
def releasedWrite (r : Fin 16) (bytes : Assembly) (s : State) : FwdTxn :=
  let a := (s.ring r).desc.prodAddr
  { initiator := (s.slot r).lastInit, addr := BitVec.ofNat 32 (a / 16 * 16), isRead := false, burst := 1,
    beats := [beatAt (a % 16) bytes], direct := false,
    held := (s.slot r).withheld ++ (s.slot r).joined }

/-- The slot of ring `r` releases `bytes` and becomes EMPTY (R11, R12). Where another ring still holds the same word, its
released write answers the transactions of this slot too (R8). -/
def releaseSlot (r : Fin 16) (bytes : Assembly) (s : State) : State :=
  match s.sharing r with
  | some r' =>
    let ids := (s.slot r).withheld ++ (s.slot r).joined
    (s.onSlot r' fun sl =>
      { sl with joined := sl.joined ++ ids.filter fun id => !(sl.withheld ++ sl.joined).contains id }).onSlot r
        fun _ => .empty
  | none =>
    (s.onLif fun l => { l with forwardPath := l.forwardPath ++ [releasedWrite r bytes s] }).onSlot r fun _ => .empty

/-- What a release without commit carries (R12). -/
def uncommittedBytes (sl : HeldSlot) : Assembly :=
  match sl.completed with
  | none => sl.pend
  | some v => (wordBytes v).map fun pb => (pb.1, (sl.pend.lookup pb.1).getD pb.2)

/-- Release without commit (R12). -/
def releaseWithoutCommit (r : Fin 16) (s : State) : State :=
  if (s.slot r).status = .empty then s else releaseSlot r (uncommittedBytes (s.slot r)) s

/-- Release after commit (R11): with bytes pending the slot waits for its assembly, but not while SUSPENDING (R12). -/
def releaseAfterCommit (r : Fin 16) (s : State) : State :=
  let sl := s.slot r
  if sl.status = .empty then s
  else if sl.pend = [] then
    match sl.target with
    | some v => releaseSlot r (wordBytes v) s
    | none => s
  else if s.ccu.part = .suspending then releaseWithoutCommit r s
  else s.onSlot r fun sl => { sl with status := .holding }

end Sys2Proof.Machine
end

