-- ==== Sys2Proof/Machine/Rings.lean ====
section
/-! DEFINITION. The ring monitor (02_watched_rings_and_frame_capture.md): descriptors and states, baselines, commit and
resync, capture, watermarks and consumer values. -/

namespace Sys2Proof.Machine

/-! ## Descriptors (R23, R24, R25) -/

/-- A ring in one of the states in which it claims its slot region (R24). -/
def RingState.claims (st : RingState) : Bool := st == .enabling || st == .enabled || st == .disabling

/-- First byte after the slot region (R23). -/
def regionEnd (d : RingDesc) : Nat := d.base + d.slotCount * d.slotSize

/-- Two byte ranges share a byte. -/
def overlaps (a b c d : Nat) : Bool := a < d && c < b && a < b && c < d

/-- A 4-byte word at `a` has a byte in the slot region of `d`. -/
def wordInRegion (a : Nat) (d : RingDesc) : Bool := overlaps a (a + 4) d.base (regionEnd d)

/-- The other claiming rings. -/
def State.otherClaims (s : State) (r : Fin 16) : List RingDesc :=
  ((List.finRange 16).filter fun r' => r' != r && (s.ring r').state.claims).map fun r' => (s.ring r').desc

/-- The first cause, in the order of R24's table, that makes ring `r`'s descriptor not valid (log 44). -/
def State.rejection (s : State) (r : Fin 16) : Option RejectCause :=
  let d := (s.ring r).desc
  let others := s.otherClaims r
  let lo := s.areaBase
  let hi := s.areaBase + 0x40000
  if !(d.slotSize == 256 || d.slotSize == 512 || d.slotSize == 1024 || d.slotSize == 2048) then some .size
  else if !([8, 16, 32, 64, 128, 256, 512, 1024].contains d.slotCount) then some .count
  else if d.base % d.slotSize ≠ 0 ∨ d.prodAddr % 4 ≠ 0 ∨ d.consAddr % 4 ≠ 0 then some .align
  else if regionEnd d > 2 ^ 32 ∨ d.prodInit > 16 then some .range
  else if overlaps d.base (regionEnd d) lo hi || overlaps d.prodAddr (d.prodAddr + 4) lo hi ||
      overlaps d.consAddr (d.consAddr + 4) lo hi then some .area
  else if others.any fun o => overlaps d.base (regionEnd d) o.base (regionEnd o) then some .overlap
  else if (d :: others).any fun o => wordInRegion d.prodAddr o || wordInRegion d.consAddr o then some .index
  else none

/-- The watermark clamps (R25): high to 1 … slot count, then low to 0 … high − 1. -/
def clampMarks (d : RingDesc) : RingDesc :=
  let high := clampNat 1 (max 1 d.slotCount) d.high
  { d with high := high, low := min d.low (high - 1) }

/-! ## Runtime records -/

/-- Occupancy (R44). It can pass the slot count where a valid consumer value behind C is taken during a commit, which goes on:
the model's choice (log 62). -/
def occupancy (g : Ring) : Nat := (g.prod - g.cons).toNat

/-- Slot number of an index (R36). -/
def slotOf (g : Ring) (i : Word) : Nat := i.toNat % g.desc.slotCount

/-- The baseline reads of a ring that are not answered yet (R28). -/
def State.baselineOut (s : State) (r : Fin 16) : Bool :=
  let isBase (t : InjTag) : Bool := match t with
    | .baseline r' _ _ => r' == r
    | _ => false
  s.lif.injQueue.any (fun e => isBase e.tag) || s.lif.injInFlight.any (fun e => isBase e.tag) ||
    s.lif.injWaiting.any fun w => match w.2 with
      | .baselineRead r' _ _ => r' == r
      | _ => false

/-- Ring `r` takes a state, and its ring record is written when that is a change (R177). -/
def setRingState (r : Fin 16) (st : RingState) (s : State) : State :=
  let old := (s.ring r).state
  let s := s.onRing r fun g => { g with state := st }
  if old = st then s else s.ask .rmn (.ringRecord r)

/-- A capture buffer becomes FREE, which clears the exhaustion flag (R31). -/
def freeBuffer (b : Fin 64) (s : State) : State :=
  s.onRmn fun m => { m with buffers := upd m.buffers b fun x => { x with st := .free }, exhausted := false }

/-- A buffer that ring `r` is filling. -/
def fillingFor (r : Fin 16) (b : Buffer) : Bool :=
  match b.st with
  | .filling r' _ _ => r' == r
  | _ => false

/-- Every FILLING buffer of ring `r` becomes FREE (R28, R29, R35). -/
def freeRingBuffers (r : Fin 16) (s : State) : State :=
  s.onRmn fun m =>
    { m with
      buffers := m.buffers.map fun b => if fillingFor r b then { b with st := .free } else b
      exhausted := m.exhausted && !m.buffers.toList.any (fillingFor r) }

/-- The rewrite trackers of ring `r` become FREE (R99). -/
def freeRingTrackers (r : Fin 16) (s : State) : State :=
  s.onRmn fun m => { m with trackers := m.trackers.map fun t => if t.ring = r then { t with st := .free } else t }

/-- Where the commit of ring `r`'s next slot is held (R96). -/
def setMidway (r : Fin 16) (h : Option Midway) (s : State) : State :=
  s.onRmn fun m => { m with midway := upd m.midway r fun _ => h }

/-- The slot map of ring `r` is emptied, its FILLING buffers and its trackers become FREE (R31, R89), and no slot of it is
held. -/
def clearSlots (r : Fin 16) (s : State) : State :=
  (setMidway r none (freeRingTrackers r (freeRingBuffers r s))).onRing r fun g => { g with slotMap := [] }

/-- The slot in progress of uplink ring `r`'s commit is given up: it leaves the paused-commit list (R35), and a receipt that has
not joined the injection queue is not written. That the dispatch place such a slot took on leaving that list (R39) is free then,
and goes to no other paused commit, is the model's choice (log 58). -/
def dropSlotInProgress (r : Fin 16) (s : State) : State :=
  (s.onRmn fun m => { m with paused := m.paused.filter fun r' => r' != r }).onLif fun l =>
    { l with injWaiting := l.injWaiting.filter fun w => match w.2 with
        | .receipt c => c.ring != r
        | _ => true }

/-- What stays of a held downlink commit that is given up: that REWRITE_SKIPPED has been raised for the slot (R98). -/
def Midway.giveUp (h : Midway) : Option Midway := if h.told then some { h with givenUp := true } else none

/-- An extension names P (R40): the slot in progress is given up, a downlink slot keeping its record, and it is committed from its
beginning by a later commit, which does not raise REWRITE_SKIPPED a second time (R98). That the slot is given up is the model's
choice (log 14). -/
def giveUpSlot (r : Fin 16) (s : State) : State :=
  setMidway r (s.rmn.midway[r].bind Midway.giveUp) (dropSlotInProgress r s)

/-! ## Watermarks and consumer values -/

/-- The watermark state is evaluated after a commit or a consumer value (R44). -/
def evalMarks (r : Fin 16) (s : State) : State :=
  let g := s.ring r
  let occ := occupancy g
  if !g.above ∧ g.desc.high ≤ occ then
    (s.onRing r fun g => { g with above := true }).raise .rmn .ringHigh .ring r.val occ 0 0
  else if g.above ∧ occ ≤ g.desc.low then
    (s.onRing r fun g => { g with above := false }).raise .rmn .ringLow .ring r.val occ 0 0
  else s

/-- A consumer value assembled by initiator `x`'s write (R6, R27, R45). -/
def consumerValue (r x : Fin 16) (v : Word) (s : State) : State :=
  let s := s.onRing r fun g => { g with valueFrom := some x }
  let g := s.ring r
  match g.state with
  | .enabling => s.onRing r fun g => { g with keptC := some v }
  | .enabled | .disabling =>
    if (g.prod - v).toNat > g.desc.slotCount then s.raise .rmn .indexInvalid .ring r.val v.toNat 0 0
    else evalMarks r (s.onRing r fun g => { g with cons := v })
  | .disabled | .rejected => s

/-! ## Commit (R34, R35, R40) -/

/-- A resync to `v`; `held`: the value came from a held-write slot (R35). -/
def resync (r : Fin 16) (v : Word) (held : Bool) (s : State) : State :=
  let old := (s.ring r).prod
  let s := (dropSlotInProgress r (clearSlots r s)).onRing r fun g =>
    let c := if (v - g.cons).toNat > g.desc.slotCount then v else g.cons
    { g with
      commit := none
      prod := v
      cons := c
      above := decide (g.desc.high ≤ (v - c).toNat)
      resyncs := satInc Config.max32 g.resyncs }
  let s := (s.raise .rmn .ringResync .ring r.val old.toNat v.toNat 0).ask .rmn (.ringRecord r)
  if held then releaseWithoutCommit r s else s

/-- A commit is complete when P has reached its target and no receipt is outstanding (R40). -/
def checkComplete (r : Fin 16) (s : State) : State :=
  let g := s.ring r
  match g.commit with
  | none => s
  | some c =>
    if g.prod = c.target ∧ g.outstanding = 0 then
      let s := s.onRing r fun g => { g with commit := none }
      if c.byRequest then releaseAfterCommit r s else s
    else s

/-- A producer value `v` handed on while a commit is in progress (R40). -/
def extendCommit (r : Fin 16) (v : Word) (held : Bool) (c : Commit) (s : State) : State :=
  let g := s.ring r
  if (v - g.prod).toNat > g.desc.slotCount ∨ (v - g.cons).toNat > g.desc.slotCount then resync r v held s
  else
    let s := s.onRing r fun g => { g with commit := some { target := v, byRequest := c.byRequest || held } }
    checkComplete r (if v = g.prod then giveUpSlot r s else s)

/-- A producer value `v` handed on with no commit in progress, the ring being ENABLED or DISABLING (R34). -/
def beginCommit (r : Fin 16) (v : Word) (held : Bool) (s : State) : State :=
  let g := s.ring r
  if v = g.prod then if held then releaseAfterCommit r s else s
  else if (v - g.prod).toNat > g.desc.slotCount ∨ (v - g.cons).toNat > g.desc.slotCount then resync r v held s
  else s.onRing r fun g => { g with commit := some { target := v, byRequest := held } }

/-- A producer value completed by initiator `x` is handed to the ring monitor, as a commit request (`held`) or a
pass-through advance (R6, R10, R13, R34, R40). While SUSPENDING, one that extends no commit is not evaluated (R29), and a
downlink advance extends none, since an earlier one completes its commit as it is handed on (R99; log 43). -/
def handProducer (r x : Fin 16) (v : Word) (held : Bool) (s : State) : State :=
  let s := s.onRing r fun g => { g with valueFrom := some x }
  let g := s.ring r
  if g.state = .enabled ∨ g.state = .disabling then
    match g.commit with
    | some c =>
      if s.running ∨ g.desc.dir = .uplink then extendCommit r v held c s
      else if held then releaseWithoutCommit r s else s
    | none =>
      if s.running then beginCommit r v held s else if held then releaseWithoutCommit r s else s
  else s

/-! ## Ring states (R26 to R29) -/

/-- The ring's producer writes are held while it is ENABLED (R8). -/
def RingDesc.holds (d : RingDesc) : Bool := d.dir == .uplink && d.receipts

/-- Entry to ENABLING (R27): the runtime record is cleared and the two baseline reads are requested. That the ring record (R177)
is requested before them is the model's choice (log 54). -/
def enterEnabling (r : Fin 16) (s : State) : State :=
  let s := (clearSlots r (dropSlotInProgress r s)).onRing r fun g =>
    { g with
      gen := g.gen + 1
      commit := none
      outstanding := 0
      keptC := none
      baseP := none
      baseC := none
      desc := clampMarks g.desc }
  let s := s.onLif fun l => { l with prodShadow := upd l.prodShadow r fun _ => [], consShadow := upd l.consShadow r fun _ => [] }
  let gen := (s.ring r).gen
  ((setRingState r .enabling s).ask .rmn (.baselineRead r gen false)).ask .rmn (.baselineRead r gen true)

/-- A ring takes a state with no window: its index-word shadows are emptied (R7). -/
def closeWindows (r : Fin 16) (s : State) : State :=
  s.onLif fun l => { l with prodShadow := upd l.prodShadow r fun _ => [], consShadow := upd l.consShadow r fun _ => [] }

/-- The descriptor of a ring whose enable is on is tested, and the ring is REJECTED, waits or enters ENABLING (R26). -/
def testRing (r : Fin 16) (s : State) : State :=
  match s.rejection r with
  | some c => setRingState r .rejected (closeWindows r (s.onRing r fun g => { g with cause := some c }))
  | none => if s.running then enterEnabling r s else setRingState r .disabled (closeWindows r s)

/-- A descriptor field or the enable of a ring that is DISABLED or REJECTED has changed (R24, R26). -/
def retestRing (r : Fin 16) (s : State) : State :=
  let g := s.ring r
  if g.state = .disabled ∨ g.state = .rejected then
    if g.desc.enable then testRing r s else setRingState r .disabled s
  else s

/-- Admission at the part's entry to RUNNING (R26): waiting and REJECTED rings whose enable is on, and rings left ENABLED
or ENABLING. -/
def admitRing (r : Fin 16) (s : State) : State :=
  let g := s.ring r
  match g.state with
  | .disabled | .rejected => if g.desc.enable then testRing r s else s
  | .enabled | .enabling => testRing r s
  | .disabling => s

/-- Rings are admitted in ascending ring number (R26). -/
def admitRings (s : State) : State := (List.finRange 16).foldl (fun s r => admitRing r s) s

/-- Enable turns off (R26, R28). -/
def enableOff (r : Fin 16) (s : State) : State :=
  match (s.ring r).state with
  | .enabling | .enabled => setRingState r .disabling s
  | .rejected => setRingState r .disabled s
  | .disabled | .disabling => s

/-- A ring that reaches ENABLED has its kept target and held writes treated (R10, R13, R27). For a ring that does not hold,
R10 lets the bytes pending at that moment stay pending and R12 discards the assembly with the release: they are released and
discarded (log 45). That the kept target is handed on at once, though another ring's slot still holds the same word and so no
write is released yet (R8, R41), is the model's choice (log 57). -/
def handKept (r : Fin 16) (s : State) : State :=
  let sl := s.slot r
  if (s.ring r).desc.holds then
    match sl.status, sl.target with
    | .holding, some v => handProducer r sl.targetInit v true (s.onSlot r fun sl => { sl with status := .committing })
    | _, _ => s
  else
    let s := releaseWithoutCommit r s
    match sl.target with
    | some v => handProducer r sl.targetInit v false s
    | none => s

/-- The baseline of an ENABLING ring (R27 steps 1 to 5): `p` and `c` are the words read. -/
def takeBaseline (r : Fin 16) (p c : Word) (s : State) : State :=
  let g := s.ring r
  let c := g.keptC.getD c
  let bad : Bool := decide ((p - c).toNat > g.desc.slotCount)
  let cons := if bad then p else c
  let s := s.onRing r fun g =>
    { g with prod := p, cons := cons, above := decide (g.desc.high ≤ (p - cons).toNat) }
  let s := if bad then s.raise .rmn .indexInvalid .ring r.val c.toNat 0 0 else s
  handKept r (setRingState r .enabled s)

/-- The index word at address `a` in a beat read from memory. -/
def wordOfBeat (a : Nat) (data : BitVec 128) : Word := data.extractLsb' (8 * (a % 16)) 32

/-- A baseline read of ring `r` with tag `gen` is answered (R27); an answer to another generation, or that finds the ring
not ENABLING or the part not RUNNING, is discarded (R29). -/
def baselineAnswer (r : Fin 16) (gen : Nat) (consumer : Bool) (data : BitVec 128) (s : State) : State :=
  let g := s.ring r
  if g.state = .enabling ∧ g.gen = gen ∧ s.running then
    let s := s.onRing r fun g =>
      if consumer then { g with baseC := some (wordOfBeat g.desc.consAddr data) }
      else { g with baseP := some (wordOfBeat g.desc.prodAddr data) }
    match (s.ring r).baseP, (s.ring r).baseC with
    | some p, some c => takeBaseline r p c s
    | _, _ => s
  else s

/-- DISABLING of ring `r` has nothing left in progress (R28). -/
def State.disableDone (s : State) (r : Fin 16) : Bool :=
  let g := s.ring r
  g.state == .disabling && g.commit.isNone && g.outstanding == 0 && !s.baselineOut r

/-- DISABLING ends (R28). -/
def finishDisabling (r : Fin 16) (s : State) : State :=
  let s := closeWindows r (releaseWithoutCommit r (clearSlots r s))
  if (s.ring r).desc.enable then testRing r s else setRingState r .disabled s

/-! ## Capture (R31, R32, R33) -/

/-- A write's initiator may fill the slots of the ring (R23). -/
def RingDesc.producer (d : RingDesc) (i : Fin 16) : Bool := d.prodInit == 16 || d.prodInit == i.val

/-- Put written bytes into a buffer (R33). -/
def storeBytes (w : List (Nat × Byte)) (v : Vector Byte 256) : Vector Byte 256 :=
  w.foldl (fun v ob => v.setIfInBounds ob.1 ob.2) v

/-- The FREE buffer that a capture takes (R33; log 21). -/
def State.freeBufferIndex (s : State) : Option (Fin 64) := (List.finRange 64).find? fun b => (s.buffer b).st == .free

/-- The FILLING buffer of a slot entry. -/
def SlotEntry.fillingBuffer : SlotEntry → Option (Fin 64)
  | .filling b _ => some b
  | _ => none

/-- Free the buffer of slot `sl`, if it is still FILLING for the ring. -/
def freeSlotBuffer (r : Fin 16) (sl : Nat) (s : State) : State :=
  match (mapGet (s.ring r).slotMap sl).bind SlotEntry.fillingBuffer with
  | some b => if fillingFor r (s.buffer b) then freeBuffer b s else s
  | none => s

/-- A capture at index `i` takes a FREE buffer for slot `sl`, or the slot is MISSED (R33); a DISABLING ring starts no
capture (R28, log 22). -/
def startCapture (r : Fin 16) (sl : Nat) (i : Word) (w : List (Nat × Byte)) (s : State) : State :=
  let s := freeSlotBuffer r sl s
  if (s.ring r).state = .disabling then s.onRing r fun g => { g with slotMap := mapDel sl g.slotMap }
  else
    match s.freeBufferIndex with
    | some b =>
      (s.onBuffer b fun _ =>
        { st := .filling r sl i, bytes := storeBytes w (Vector.replicate 256 0) }).onRing r fun g =>
          { g with slotMap := mapPut sl (.filling b i) g.slotMap }
    | none =>
      let s := s.onRing r fun g => { g with slotMap := mapPut sl (.missed .exhausted i) g.slotMap }
      if s.rmn.exhausted then s
      else
        (s.onRmn fun m => { m with exhausted := true }).raise .rmn .captureExhausted .ring r.val i.toNat 0 0

/-- A producer write at capture index `i` into slot `sl` (R33). -/
def captureAt (r : Fin 16) (sl : Nat) (i : Word) (w : List (Nat × Byte)) (s : State) : State :=
  match mapGet (s.ring r).slotMap sl with
  | some (.filling b i') =>
    if i' = i then s.onBuffer b fun x => { x with bytes := storeBytes w x.bytes } else startCapture r sl i w s
  | some (.missed _ i') => if i' = i then s else startCapture r sl i w s
  | _ => startCapture r sl i w s

/-- A write of `w`, bytes in the first 256 of slot `sl`, by initiator `x` (R32). At an occupancy above the slot count, f is
taken as 0, the model's choice (log 62). -/
def slotWrite (r : Fin 16) (x : Fin 16) (sl : Nat) (w : List (Nat × Byte)) (s : State) : State :=
  let g := s.ring r
  let n := g.desc.slotCount
  let k := (BitVec.ofNat 32 sl - g.prod).toNat % n
  let f := n - occupancy g
  if g.desc.producer x then
    if f ≤ k then
      s.raise .rmn .producerOverrun .ring r.val
        (g.cons + BitVec.ofNat 32 ((BitVec.ofNat 32 sl - g.cons).toNat % n)).toNat x.val 0
    else captureAt r sl (g.prod + BitVec.ofNat 32 k) w s
  else if f ≤ k then s
  else
    let i := g.prod + BitVec.ofNat 32 k
    ((freeSlotBuffer r sl s).onRing r fun g =>
      { g with slotMap := mapPut sl (.missed .foreign i) g.slotMap }).raise .rmn .foreignWrite .ring r.val i.toNat x.val 0

/-- The bytes of a write that lie in the slot region of uplink ring `r`, slot by slot (R32); that the slots go in the order in
which the write's beats reach them, by ascending address, is the model's choice (log 51). -/
def captureWrite (r : Fin 16) (x : Fin 16) (w : List (Nat × Byte)) (s : State) : State :=
  let d := (s.ring r).desc
  let inside := bytesIn d.base (d.slotCount * d.slotSize) w
  let slots := (inside.map fun ob => ob.1 / d.slotSize).dedup
  slots.foldl (fun s sl =>
    let part := bytesIn (sl * d.slotSize) 256 inside
    if part = [] then s
    else if ((s.ring r).state = .enabled ∨ (s.ring r).state = .disabling) ∧ s.running then slotWrite r x sl part s
    else s) s

end Sys2Proof.Machine
end

