-- ==== Sys2Proof/Machine/Commits.lean ====
section
/-! DEFINITION. The commit of one uplink slot: validation, receipt, dispatch entry, advance (R36 to R39), and the
resumption of paused commits. -/

namespace Sys2Proof.Machine

/-! ## Validation (R37) -/

/-- The COUNT test (R37): the entry count fits the kind and the length. -/
def countFits (f : Frame) : Bool :=
  match frameKind f with
  | 1 => frameCount f == 0
  | 3 => 1 ≤ frameCount f && frameCount f ≤ 12 && 32 + 16 * frameCount f ≤ frameLen f
  | 4 => 1 ≤ frameCount f && frameCount f ≤ 8 && 32 + 2 * frameCount f ≤ frameLen f
  | _ => true

/-- The bit of a frame kind's class in the kind enable mask (11, configuration block, 0x005). -/
def classBit (kind : Nat) : Nat := if 1 ≤ kind ∧ kind ≤ 4 then kind - 1 else 4

/-- The verdict on a captured frame (R37, orders 2 to 9). -/
def judgeFrame (c : Cfg) (d : RingDesc) (f : Frame) : Verdict × Reason :=
  let top := if d.receipts then d.slotSize - 16 else d.slotSize
  if frameMagic f ≠ 0x5A then (.malformed, .magic)
  else if c.version ≠ 0 ∧ c.version ≠ frameVersion f then (.malformed, .version)
  else if frameLen f < 32 ∨ frameLen f > top then (.malformed, .length)
  else if d.check ∧ headerSum f ≠ 0xFFFF then (.malformed, .check)
  else if !countFits f then (.malformed, .count)
  else if c.domainCheck ∧ frameDomain f ≠ c.domain then (.foreignDomain, .none)
  else if frameKind f = 0 ∨ frameKind f = 2 ∨ !c.kindMask.testBit (classBit (frameKind f)) then (.ignoredKind, .none)
  else (.accepted, .none)

/-- Why a slot without a buffer for index `i` is uncaptured (R36 step 1). -/
def missReasonOf (e : Option SlotEntry) (i : Word) : Reason :=
  match e with
  | some (.missed .exhausted i') => if i' = i then .exhausted else .notWritten
  | some (.missed .foreign i') => if i' = i then .foreign else .notWritten
  | _ => .notWritten

/-- The buffer of a slot entry for index `i` (R36 step 1). -/
def bufferFor (e : Option SlotEntry) (i : Word) : Option (Fin 64) :=
  match e with
  | some (.filling b i') => if i' = i then some b else none
  | _ => none

/-! ## Receipt and advance -/

/-- The receipt of a commit (R38; 11, receipt). -/
def receiptBytes (c : CommitPoint) : List Byte :=
  [0xA5] ++ leBytes 1 (verdictCode c.verdict) ++ leBytes 1 (reasonCode c.reason) ++ leBytes 1 c.ring.val ++
    leBytes 4 c.index.toNat ++ siteBytes c.siteTime ++ leBytes 2 c.length

/-- Where the receipt of a slot lies (R38). -/
def receiptAddr (d : RingDesc) (slot : Nat) : Nat := d.base + slot * d.slotSize + d.slotSize - 16

/-- Step 6 of R36: an ACCEPTED frame's buffer joins the dispatch queue, any other frame's is freed. The buffer counts only
while it still is the FILLING buffer of this slot and index (log 13); that the dispatch place which a resumed commit took (R39)
is free where it no longer is, and goes to no other paused commit, is the model's choice (log 58). -/
def bufferFate (c : CommitPoint) (s : State) : State :=
  match c.buf with
  | none => s
  | some b =>
    if (s.buffer b).st = .filling c.ring c.slot c.index then
      if c.verdict = .accepted then
        (s.onBuffer b fun x => { x with st := .queued }).onRmn fun m =>
          { m with dispatch := m.dispatch ++ [{ ring := c.ring, index := c.index, runTime := c.runTime, buf := b }] }
      else freeBuffer b s
    else s

/-- Steps 6 and 7 of R36. A buffer that a write took for the slot after step 1 is freed with it (R31). That P
advances also where a consumer value behind C, taken meanwhile (R45), has left the ring full, is the model's choice (log 62). -/
def finishSlot (c : CommitPoint) (s : State) : State :=
  let s := freeSlotBuffer c.ring c.slot (bufferFate c s)
  let s := if c.verdict = .malformed then
      s.raise .rmn .frameMalformed .ring c.ring.val c.index.toNat (reasonCode c.reason) 0
    else s
  checkComplete c.ring (evalMarks c.ring (s.onRing c.ring fun g =>
    { g with slotMap := mapDel c.slot g.slotMap, prod := c.index + 1 }))

/-- Steps 4 and 5 of R36, and the rest where no receipt is due: the times are read, the receipt is requested. -/
def commitSlotFrom4 (r : Fin 16) (b : Option (Fin 64)) (v : Verdict × Reason) (s : State) : State :=
  let g := s.ring r
  let c : CommitPoint :=
    { ring := r, index := g.prod, slot := slotOf g g.prod, buf := b, verdict := v.1, reason := v.2,
      length := match b with
        | some b => frameLen (s.buffer b).bytes
        | none => 0
      runTime := s.now, siteTime := s.site }
  if g.desc.receipts then s.ask .rmn (.receipt c) else finishSlot c s

/-- The commit of the next slot of ring `r` (R36): buffer, verdict, and a pause where an ACCEPTED frame finds the dispatch
queue full (R39). -/
def commitSlot (r : Fin 16) (s : State) : State :=
  let g := s.ring r
  let i := g.prod
  let sl := slotOf g i
  let e := mapGet g.slotMap sl
  match bufferFor e i with
  | some b =>
    let v := judgeFrame s.ccu.cfg g.desc (s.buffer b).bytes
    if v.1 = .accepted ∧ s.rmn.dispatch.length ≥ Config.dispatchDepth then
      s.onRmn fun m => { m with paused := m.paused ++ [r] }
    else commitSlotFrom4 r (some b) v s
  | none => commitSlotFrom4 r none (.uncaptured, missReasonOf e i) (freeSlotBuffer r sl s)

/-- A freed dispatch place goes to the oldest paused commit (R39). One whose buffer was freed meanwhile by a foreign write
commits UNCAPTURED and leaves the place to the next (log 13). -/
def resumePaused : List (Fin 16) → State → State
  | [], s => s.onRmn fun m => { m with paused := [] }
  | r :: rest, s =>
    let g := s.ring r
    let e := mapGet g.slotMap (slotOf g g.prod)
    match bufferFor e g.prod with
    | some b => commitSlotFrom4 r (some b) (.accepted, .none) (s.onRmn fun m => { m with paused := rest })
    | none => resumePaused rest (commitSlotFrom4 r none (.uncaptured, missReasonOf e g.prod) s)

/-- A commit of ring `r` is in progress and has slots left. -/
def State.slotsLeft (s : State) (r : Fin 16) : Bool :=
  let g := s.ring r
  match g.commit with
  | some c => (g.state == .enabled || g.state == .disabling) && g.prod != c.target
  | none => false

/-- The next slot of uplink ring `r` can commit now (R36, R39, R16). -/
def State.slotCommitDue (s : State) (r : Fin 16) : Bool :=
  !s.pins.inReset && s.working && s.slotsLeft r && (s.ring r).desc.dir == .uplink && !s.rmn.paused.contains r &&
    !s.blocked .rmn

end Sys2Proof.Machine
end

