-- ==== Sys2Proof/Machine/Crane.lean ====
section
/-! DEFINITION. The crane supervisor (04_crane_link_supervision.md): binding, status frames, the deadline countdown,
hold and release, pending commands, round trip and jitter. -/

namespace Sys2Proof.Machine

/-- Raise a crane event of context `k` (R86): detail 0 is always the terminal id. -/
def craneEvent (k : Fin 32) (kind : EventKind) (d1 d2 : Int) (s : State) : State :=
  s.raise .csv kind .context k.val (s.crane k).tid.toNat d1 d2

/-! ## Round trip and jitter -/

/-- A round-trip sample (R79). -/
def rttSample (rtt : Nat) (old : Option RoundTrip) : RoundTrip :=
  let x := min rtt Config.max32
  match old with
  | none => { last := x, min := x, max := x, srtt := x }
  | some q =>
    { last := x, min := min q.min x, max := max q.max x,
      srtt := ((q.srtt : Int) + roundStep ((x : Int) - q.srtt) 3).toNat }

/-- The echo `e` of a frame dispatched at `t` (R78). -/
def echoCrane (e : BitVec 16) (t : Nat) (c : Crane) : Crane :=
  if e = 0xFFFF then c
  else
    match c.cmds.findIdx? fun p => p.seq == e with
    | none => c
    | some i =>
      { c with
        cmds := c.cmds.drop (i + 1)
        unanswered := min (c.unanswered + i) Config.max32
        rtt := match c.cmds[i]? with
          | none => c.rtt
          | some p => some (rttSample (t - p.stamp) c.rtt) }

/-- The jitter estimate after a frame with arrival `a` and sender time `ts`, where the previous ones are `a'` and `ts'`
(R80). -/
def nextJitter (j : Nat) (a a' : Nat) (ts ts' : Word) : Nat :=
  let d : Int := ((a : Int) - a') - 1000 * ((ts - ts').toNat : Int)
  (clampInt 0 16777215 ((j : Int) + roundStep ((d.natAbs : Int) - j) 4)).toNat

/-- The jitter alarm after an update of J (R81). -/
def nextAlarm (limit j : Nat) (raised : Bool) : Bool := if raised then !(j < limit / 2) else limit ≤ j

/-- The jitter effect of an accepted frame (R67 item 5, R80, R81). -/
def jitterEffect (k : Fin 32) (a : Nat) (ts : Word) (s : State) : State :=
  let c := s.crane k
  let limit := s.ccu.cfg.jitterLimit
  let s := match c.prevArrival, c.prevSender with
    | some a', some ts' =>
      let j := nextJitter c.jitter a a' ts ts'
      let s := s.onCrane k fun c => { c with jitter := j, alarmRaised := nextAlarm limit j c.alarmRaised }
      if !c.alarmRaised ∧ limit ≤ j then craneEvent k .craneJitterHigh j limit s else s
    | _, _ => s
  s.onCrane k fun c => { c with prevArrival := some a, prevSender := some ts }

/-! ## Accepted frames -/

/-- The state effect of an accepted frame (R69). -/
def stateEffect (k : Fin 32) (gap : Bool) (s : State) : State :=
  let c := s.crane k
  let live (prev : CraneState) := craneEvent k .craneLive (craneCode prev) (optSeq c.lastSeq)
    (s.onCrane k fun c => { c with st := .live, good := 0, miss := 0 })
  match c.st with
  | .watch =>
    if gap then s.onCrane k fun c => { c with good := 0 }
    else if c.goodRun ≤ satInc 255 c.good then live .watch
    else s.onCrane k fun c => { c with good := satInc 255 c.good }
  | .live => s.onCrane k fun c => { c with miss := 0 }
  | .degraded =>
    craneEvent k .craneLive (craneCode .degraded) (optSeq c.lastSeq)
      (s.onCrane k fun c => { c with st := .live, miss := 0 })
  | .hold =>
    if gap then s.onCrane k fun c => { c with good := 0, ready := false }
    else
      let good := satInc 255 c.good
      let s := s.onCrane k fun c => { c with good := good, ready := c.ready || c.goodRun ≤ good }
      if !c.ready ∧ c.goodRun ≤ good then craneEvent k .craneHoldReady good (optSeq c.lastSeq) s else s
  | .unbound => s

/-- The ESTOP effect of an accepted frame (R70). -/
def estopEffect (k : Fin 32) (f : Frame) (s : State) : State :=
  let before := (s.crane k).estop
  let s := s.onCrane k fun c => { c with estop := frameEstop f }
  if frameEstop f ∧ !before then craneEvent k .craneEstop (frameSeq f).toNat (framePos f) s else s

/-- An accepted frame, its effects in the order of R67; `bin` is the last bin of its directory result (R68), `a` its
commit run time, `t` its dispatch run time. -/
def acceptFrame (k : Fin 32) (f : Frame) (bin : Option (Fin 64)) (a t : Nat) (gap : Bool) (s : State) : State :=
  estopEffect k f
    (stateEffect k gap
      (jitterEffect k a (frameSender f)
        (s.onCrane k fun c =>
          echoCrane (frameControl f) t
            { c with
              countdown := some (t + c.deadline)
              lastSeq := some (frameSeq f)
              lastPos := some (BitVec.ofNat 32 (framePos f))
              bin := bin })))

/-- A supervised frame is classified by its sequence (R66). -/
def supervise (k : Fin 32) (f : Frame) (bin : Option (Fin 64)) (a t : Nat) (s : State) : State :=
  let c := s.crane k
  match c.lastSeq with
  | none => acceptFrame k f bin a t false s
  | some q =>
    let d := (frameSeq f - q).toNat
    if d = 0 then s.onCrane k fun c => { c with duplicate := satInc Config.max32 c.duplicate }
    else if d = 1 then acceptFrame k f bin a t false s
    else if d ≤ c.window then
      acceptFrame k f bin a t true (s.onCrane k fun c => { c with lost := min (c.lost + (d - 1)) Config.max32 })
    else s.onCrane k fun c => { c with stale := satInc Config.max32 c.stale }

/-- A CRANE_STATUS frame of a terminal with no context (R65). -/
def unboundFrame (i : Fin 256) (r : Fin 16) (f : Frame) (s : State) : State :=
  let e := s.entry i
  if e.st = .free ∨ e.id ≠ frameTid f ∨ e.unboundMark then s
  else
    (s.onEntry i fun e => { e with unboundMark := true }).raise .csv .craneUnboundFrame .terminal (frameTid f).toNat
      i.val r.val (frameSeq f).toNat

/-- The crane supervisor's job step for a CRANE_STATUS frame of ring `r` (R65). A frame that was on the dispatch queue at the
UNBIND_CRANE that left its terminal without a context, `left`, is ignored (R83; log 52). -/
def craneStep (r : Fin 16) (f : Frame) (a t : Nat) (left : Bool) (d : Option DirResult) (s : State) : State :=
  match d with
  | none => s
  | some d =>
    match d.ctx with
    | none => if left then s else unboundFrame d.index r f s
    | some k =>
      let c := s.crane k
      if c.st ≠ .unbound ∧ c.tid = frameTid f ∧ c.dirIndex = d.index then supervise k f d.lastBin a t s else s

/-! ## Deadline and hold -/

/-- A context enters HOLD (R76), with CRANE_HOLD. -/
def enterHold (k : Fin 32) (cause : HoldCause) (s : State) : State :=
  craneEvent k .craneHold (holdCode (some cause)) (s.crane k).miss
    (s.onCrane k fun c => { c with st := .hold, holdCause := some cause, good := 0, ready := false })

/-- The state change of an expiry (R72). -/
def expiryEffect (k : Fin 32) (s : State) : State :=
  let c := s.crane k
  match c.st with
  | .unbound => s
  | .watch => s.onCrane k fun c => { c with good := 0 }
  | .live =>
    craneEvent k .craneDegraded 1 (optFin c.bin) (s.onCrane k fun c => { c with st := .degraded, miss := 1 })
  | .degraded =>
    let s := s.onCrane k fun c => { c with miss := satInc 15 c.miss }
    if c.holdLimit ≤ satInc 15 c.miss then enterHold k .misses s else s
  | .hold => s.onCrane k fun c => { c with good := 0, ready := false }

/-- The expiry of context `k`'s deadline (R72, R73): reload, state change with its event, then the penalty sample. -/
def expire (k : Fin 32) (s : State) : State :=
  let c := s.crane k
  let s := expiryEffect k (s.onCrane k fun c => { c with countdown := some (s.now + c.deadline) })
  if c.st = .live ∨ c.st = .degraded then penaltySample c.bin (s.entry c.dirIndex).lastCell s else s

/-! ## Commands -/

/-- BIND_CRANE passes its tests: context `k` is bound to entry `i` (R63). -/
def bindContext (k : Fin 32) (i : Fin 256) (q : Record) (s : State) : State :=
  let deadline := clampNat 1000 1000000 (rdLe q 12 4)
  (s.onCrane k fun _ =>
    { Crane.reset with
      st := .watch
      tid := BitVec.ofNat 16 (rdLe q 10 2)
      dirIndex := i
      deadline := deadline
      countdown := some (s.now + deadline)
      holdLimit := clampNat 1 15 (rdLe q 16 1)
      goodRun := clampNat 1 255 (rdLe q 17 1)
      window := clampNat 1 32767 (rdLe q 18 2)
      bin := (s.entry i).lastBin }).onEntry i fun e => { e with ctx := some k, unboundMark := false }

/-- BIND_CRANE (R62): byte 8 context; 10–11 terminal id; 12–15 deadline; 16 hold limit; 17 good-run; 18–19 window. -/
def doBind (q : Record) (s : State) : State × Status :=
  match finOf 32 (rdLe q 8 1) with
  | none => (s, .badArgument)
  | some k =>
    if (s.crane k).st ≠ .unbound then (s, .wrongState)
    else
      match s.findTerm (BitVec.ofNat 16 (rdLe q 10 2)) with
      | none => (s, .notFound)
      | some i =>
        if (s.entry i).st ≠ .registered ∨ (s.entry i).kind ≠ .crane then (s, .notFound)
        else if (s.entry i).ctx.isSome then (s, .inUse)
        else (bindContext k i q s, .done)

/-- The frames of terminal `tid` on the dispatch queue note that context `k` was unbound behind them (R83; log 52). -/
def nameContext (k : Fin 32) (tid : BitVec 16) (s : State) : State :=
  s.onRmn fun m =>
    { m with
      dispatch := m.dispatch.map fun e =>
        if frameTid (s.buffer e.buf).bytes == tid then { e with named := some k } else e }

/-- A context becomes UNBOUND (R64). -/
def unbindContext (k : Fin 32) (s : State) : State :=
  ((nameContext k (s.crane k).tid s).onEntry (s.crane k).dirIndex fun e =>
      { e with ctx := none, former := some k }).onCrane k fun c =>
    { c with st := .unbound, countdown := none, cmds := [], ready := false, holdCause := none }

/-- UNBIND_CRANE (R64): byte 8 context. -/
def doUnbind (q : Record) (s : State) : State × Status :=
  match finOf 32 (rdLe q 8 1) with
  | none => (s, .badArgument)
  | some k => if (s.crane k).st = .unbound then (s, .wrongState) else (unbindContext k s, .done)

/-- FORCE_HOLD (R74): byte 8 context. -/
def doForceHold (q : Record) (s : State) : State × Status :=
  match finOf 32 (rdLe q 8 1) with
  | none => (s, .badArgument)
  | some k => if (s.crane k).st = .unbound then (s, .wrongState) else (enterHold k .forced s, .done)

/-- A ready HOLD is released (R75). -/
def releaseContext (k : Fin 32) (s : State) : State :=
  let c := s.crane k
  craneEvent k .craneReleased (holdCode c.holdCause) c.lost
    (s.onCrane k fun c =>
      { c with
        st := .live
        miss := 0
        good := 0
        ready := false
        holdCause := none
        countdown := some (s.now + c.deadline) })

/-- RELEASE_HOLD (R75): byte 8 context. -/
def doReleaseHold (q : Record) (s : State) : State × Status :=
  match finOf 32 (rdLe q 8 1) with
  | none => (s, .badArgument)
  | some k =>
    if (s.crane k).st ≠ .hold then (s, .wrongState)
    else if (s.crane k).ready then (releaseContext k s, .done) else (s, .notReady)

/-! ## Pending commands and the part states -/

/-- Insert a pending command in ascending order of stamp, after equal stamps (R77). -/
def insertCmd (p : PendingCmd) : List PendingCmd → List PendingCmd
  | [] => [p]
  | q :: l => if q.stamp ≤ p.stamp then q :: insertCmd p l else p :: q :: l

/-- A command entry joins a context's pending list (R77). -/
def addPending (p : PendingCmd) (c : Crane) : Crane :=
  let l := insertCmd p (c.cmds.filter fun q => q.seq != p.seq)
  if l.length > Config.pendingCommands then
    { c with cmds := l.drop 1, unanswered := satInc Config.max32 c.unanswered }
  else { c with cmds := l }

/-- A committed command entry is filed under the context bound to its terminal, or dropped (R77). -/
def fileCommand (tid : BitVec 16) (p : PendingCmd) (s : State) : State :=
  match s.findTerm tid with
  | none => s
  | some i =>
    match (s.entry i).ctx with
    | none => s
    | some k => if (s.crane k).st = .unbound then s else s.onCrane k (addPending p)

/-- A context at the part's return to RUNNING from SUSPENDED at run time `t` (R85). -/
def resumeCrane (t : Nat) (c : Crane) : Crane :=
  let c' := { c with
    lastSeq := none, prevSender := none, prevArrival := none, countdown := some (t + c.deadline), good := 0 }
  match c.st with
  | .unbound => c
  | .watch => c'
  | .live => { c' with st := .watch, miss := 0 }
  | .degraded => { c' with st := .watch, miss := 0 }
  | .hold => { c' with ready := false }

/-- Any context is bound (R84). -/
def State.anyBound (s : State) : Bool := s.csv.toList.any fun c => c.st != .unbound

end Sys2Proof.Machine
end

