-- ==== Sys2Proof/Machine/Rewrite.lean ====
section
/-! DEFINITION. Downlink rewriting (05_downlink_rewriting.md): trackers, slot records, the rewrite at beat 1, the
header-check patch, and the commit of a downlink slot. -/

namespace Sys2Proof.Machine

/-! ## The header check (R93) -/

/-- The patched check for one word that changes from `old` to `new` (R93). -/
def patchWord (check old new : Nat) : Nat :=
  if old = new then check
  else 65535 - ocAdd (ocAdd (65535 - check) (65535 - old)) new

/-- A beat with its 16-bit words 0 to 3 and 7 replaced. -/
def setWords (b : Beat) (w0 w1 w2 w3 w7 : Nat) : Beat :=
  let v : Nat :=
    w0 + 65536 * (w1 + 65536 * (w2 + 65536 * (w3 + 65536 * (beatWord b 4 + 65536 * (beatWord b 5 + 65536 *
      (beatWord b 6 + 65536 * w7))))))
  { b with data := BitVec.ofNat 128 v }

/-! ## Slot records (R89) -/

/-- The index a slot entry is tied to. -/
def SlotEntry.index : SlotEntry → Word
  | .filling _ i => i
  | .missed _ i => i
  | .tracked _ i => i
  | .passed i => i
  | .skipped _ _ i => i

/-- The tracker a slot entry names. -/
def SlotEntry.tracker : SlotEntry → Option (Fin 8)
  | .tracked t _ => some t
  | _ => none

def freeTracker (t : Fin 8) (s : State) : State := s.onTracker t fun x => { x with st := .free }

/-- Discard the record of slot `sl`; a tracker it names becomes FREE (R89). -/
def dropRecord (r : Fin 16) (sl : Nat) (s : State) : State :=
  let s := match (mapGet (s.ring r).slotMap sl).bind SlotEntry.tracker with
    | some t => freeTracker t s
    | none => s
  s.onRing r fun g => { g with slotMap := mapDel sl g.slotMap }

def setRecord (r : Fin 16) (sl : Nat) (e : SlotEntry) (s : State) : State :=
  s.onRing r fun g => { g with slotMap := mapPut sl e g.slotMap }

/-- The record of slot `sl` for frame index `i`; one tied to another index counts as empty (R89). -/
def State.record (s : State) (r : Fin 16) (sl : Nat) (i : Word) : Option SlotEntry :=
  match mapGet (s.ring r).slotMap sl with
  | some e => if e.index = i then some e else none
  | none => none

/-- Discard a record tied to another index (R89). -/
def dropStale (r : Fin 16) (sl : Nat) (i : Word) (s : State) : State :=
  match mapGet (s.ring r).slotMap sl with
  | some e => if e.index = i then s else dropRecord r sl s
  | none => s

/-! ## Beat 0 (R90, R91) -/

/-- The FREE tracker with the lowest number (R88). -/
def State.freeTrackerIndex (s : State) : Option (Fin 8) := (List.finRange 8).find? fun t => (s.tracker t).st == .free

/-- The header facts of a beat 0 (R89). -/
def beatFacts (b : Beat) : Facts :=
  { tid := BitVec.ofNat 16 (beatWord b 1), seq := BitVec.ofNat 16 (beatWord b 3), len := beatWord b 4 }

/-- The context of a beat 0 that passes the four tests of R90. -/
def State.beat0Context (s : State) (b : Beat) : Option (Fin 32) :=
  let c := s.ccu.cfg
  if (beatByte b 0).toNat = 0x5A ∧ (c.version = 0 ∨ c.version = (beatByte b 1).toNat) ∧ (beatByte b 4).toNat = 2 ∧
      c.kindMask.testBit 1 then
    match s.findTerm (beatFacts b).tid with
    | some i => (s.entry i).ctx
    | none => none
  else none

/-- The latched preferred cell and hole of a bin (R91). -/
def State.latchGrid (s : State) (bin : Option (Fin 64)) : Option (Fin 16) × Bool :=
  match bin with
  | some b =>
    if s.ccu.cfg.coverageEn ∧ b.val < s.ccu.cfg.binCount then ((s.bin b).pref, (s.bin b).hole) else (none, false)
  | none => (none, false)

/-- Tracker `t` opens for the frame at index `i` of slot `sl` (R91). -/
def openTracker (t : Fin 8) (r : Fin 16) (sl : Nat) (i : Word) (k : Fin 32) (b : Beat) (s : State) : State :=
  let grid := s.latchGrid (s.crane k).bin
  setRecord r sl (.tracked t i) (s.onTracker t fun _ =>
    { st := .opened, ring := r, slot := sl, index := i, ctx := k, facts := beatFacts b, state := (s.crane k).st,
      bin := (s.crane k).bin, cell := grid.1, hole := grid.2, stamp := none })

/-- A full beat 0 of the producer initiator (R90). -/
def beat0 (r : Fin 16) (sl : Nat) (i : Word) (b : Beat) (s : State) : State :=
  let s := dropRecord r sl s
  match s.beat0Context b with
  | none => setRecord r sl (.passed i) s
  | some k =>
    match s.freeTrackerIndex with
    | some t => openTracker t r sl i k b s
    | none => setRecord r sl (.skipped .noTracker (some (beatFacts b)) i) s

/-! ## Beat 1 (R92, R95) -/

/-- The words 8 to 11 of a frame after its rewrite (R92): issue time, motion grant, serving cell. -/
def rewriteWords (d : RingDesc) (k : Tracker) (site : Nat) (b : Beat) : Nat × Nat × Nat × Nat :=
  let w3 := beatWord b 3
  (if d.stamp then site % 65536 else beatWord b 0,
   if d.stamp then site / 65536 % 65536 else beatWord b 1,
   if d.hold ∧ (k.state = .watch ∨ k.state = .hold) then 0 else beatWord b 2,
   if d.steer ∧ k.bin.isSome ∧ !k.hole then
     match k.cell with
     | some c => w3 / 256 * 256 + c.val
     | none => w3
   else w3)

/-- The rewritten beat 1 with its patched check (R92, R93). -/
def rewriteBeat (d : RingDesc) (k : Tracker) (site : Nat) (b : Beat) : Beat :=
  let (w0, w1, w2, w3) := rewriteWords d k site b
  let check := patchWord (patchWord (patchWord (patchWord (beatWord b 7) (beatWord b 0) w0) (beatWord b 1) w1)
    (beatWord b 2) w2) (beatWord b 3) w3
  setWords b w0 w1 w2 w3 check

/-- A full beat 1 of the producer initiator (R92, R95): the state after it, and the beat forwarded. -/
def beat1 (r : Fin 16) (sl : Nat) (i : Word) (b : Beat) (s : State) : State × Beat :=
  match s.record r sl i with
  | some (.tracked t _) =>
    let d := (s.ring r).desc
    (s.onTracker t fun x => { x with st := .done, stamp := if d.stamp then some s.now else x.stamp },
      rewriteBeat d (s.tracker t) s.site.toNat b)
  | some _ => (s, b)
  | none => (setRecord r sl (.skipped .order none i) (dropStale r sl i s), b)

/-! ## Beats that spoil (R94) -/

/-- A partial or foreign beat at offset 0 (`first`) or 16 (R94). -/
def spoilBeat (r : Fin 16) (sl : Nat) (i : Word) (first : Bool) (cause : SkipCause) (s : State) : State :=
  match s.record r sl i with
  | some (.tracked t _) => setRecord r sl (.skipped cause (some (s.tracker t).facts) i) (freeTracker t s)
  | some (.passed _) => if first then setRecord r sl (.skipped cause none i) s else s
  | some _ => s
  | none => setRecord r sl (.skipped cause none i) (dropStale r sl i s)

/-- A beat at offset `off` of slot `sl` of downlink ring `r` (R90): the state after it, and the beat forwarded. At an
occupancy above the slot count, f is taken as 0, the model's choice (log 62). -/
def downlinkBeat (r : Fin 16) (x : Fin 16) (sl off : Nat) (b : Beat) (s : State) : State × Beat :=
  let g := s.ring r
  let n := g.desc.slotCount
  let k := (BitVec.ofNat 32 sl - g.prod).toNat % n
  let i := g.prod + BitVec.ofNat 32 k
  if !(off = 0 ∨ off = 16) ∨ n - occupancy g ≤ k ∨ b.strobes = 0 then (s, b)
  else if !g.desc.producer x then (spoilBeat r sl i (off == 0) .foreign s, b)
  else if b.strobes ≠ 0xFFFF then (spoilBeat r sl i (off == 0) .partialBeat s, b)
  else if off = 0 then (beat0 r sl i b s, b)
  else beat1 r sl i b s

/-- A downlink ring whose beats go to the trackers (R14, R90). -/
def State.rewrites (s : State) (r : Fin 16) : Bool :=
  let g := s.ring r
  g.desc.dir == .downlink && (g.desc.stamp || g.desc.steer || g.desc.hold) &&
    (g.state == .enabled || g.state == .disabling) && s.working

/-- The downlink ring in whose slot region the beat at address `a` lies, if its beats go to the trackers. -/
def State.rewriteRing (s : State) (a : Nat) : Option (Fin 16) :=
  (List.finRange 16).find? fun r =>
    s.rewrites r && decide ((s.ring r).desc.base ≤ a) && decide (a < regionEnd (s.ring r).desc)

/-- The beats of a write from address `a`, each with its own slot (R14). -/
def rewriteBeats (x : Fin 16) : Nat → List Beat → State → State × List Beat
  | _, [], s => (s, [])
  | a, b :: rest, s =>
    let (s, b) := match s.rewriteRing (beatPlace a) with
      | some r =>
        let d := (s.ring r).desc
        downlinkBeat r x ((beatPlace a - d.base) / d.slotSize) ((beatPlace a - d.base) % d.slotSize) b s
      | none => (s, b)
    let (s, rest) := rewriteBeats x (a + 16) rest s
    (s, b :: rest)

/-! ## Commit of a downlink slot (R96 to R98) -/

/-- The header facts of a record (R89). -/
def State.recordFacts (s : State) (e : SlotEntry) : Option Facts :=
  match e with
  | .tracked t _ => some (s.tracker t).facts
  | .skipped _ f _ => f
  | _ => none

/-- The skip a record reports at its commit (R96 step 2). -/
def State.skipCauseOf (s : State) (e : SlotEntry) : Option SkipCause :=
  match e with
  | .skipped c _ _ => some c
  | .tracked t _ => if (s.tracker t).st = .opened then some .noBeat1 else none
  | _ => none

/-- The stamp run time of a command entry, `t` being the commit run time (R97). -/
def State.stampOf (s : State) (e : SlotEntry) (t : Nat) : Nat :=
  match e with
  | .tracked k _ => if (s.tracker k).st = .done then (s.tracker k).stamp.getD t else t
  | _ => t

/-- Step 2 of R96: REWRITE_SKIPPED, with the details of R98. -/
def reportSkip (r : Fin 16) (i : Word) (e : SlotEntry) (s : State) : State :=
  match s.skipCauseOf e with
  | some c =>
    s.raise .rmn .rewriteSkipped .ring r.val i.toNat (skipCode c)
      (match s.recordFacts e with
        | some f => (f.tid.toNat : Int)
        | none => 0xFFFF)
  | none => s

/-- The length test of a downlink commit fails (R97). -/
def badLength (d : RingDesc) (f : Facts) : Bool := f.len < 32 || d.slotSize < f.len

/-- Step 3 of R96: the length test and the command entry (R97), with commit run time `t`. -/
def lengthAndCommand (r : Fin 16) (i : Word) (e : SlotEntry) (t : Nat) (s : State) : State :=
  match s.recordFacts e with
  | none => s
  | some f =>
    if badLength (s.ring r).desc f then
      s.raise .rmn .frameMalformed .ring r.val i.toNat (reasonCode .length) 0
    else fileCommand f.tid { seq := f.seq, stamp := s.stampOf e t } s

/-- Step 4 of R96, and P's advance (R41, R44). That P advances also where a consumer value behind C, taken meanwhile (R45), has
left the ring full, is the model's choice (log 62). -/
def releaseRecord (r : Fin 16) (s : State) : State :=
  let g := s.ring r
  let s := (dropRecord r (slotOf g g.prod) s).onRing r fun g => { g with prod := g.prod + 1 }
  checkComplete r (evalMarks r s)

/-- A step of R96 on the record of the slot at P, if it holds one. -/
def onRecord (r : Fin 16) (step : Word → SlotEntry → State → State) (s : State) : State :=
  let g := s.ring r
  match s.record r (slotOf g g.prod) g.prod with
  | some e => step g.prod e s
  | none => s

/-- Steps 3 and 4 of R96 with commit run time `t`: the commit is held behind an event request that finds no place. `told`:
REWRITE_SKIPPED has been raised for the slot. -/
def measureSlot (r : Fin 16) (t : Nat) (told : Bool) (s : State) : State :=
  let u := onRecord r (fun i e s => lengthAndCommand r i e t s) s
  if s.heldBehind u .rmn then setMidway r (some { runTime := t, measured := true, told := told, givenUp := false }) u
  else releaseRecord r u

/-- Step 2 of R96; one REWRITE_SKIPPED is raised for a slot at most (R98). -/
def skipStep (r : Fin 16) (told : Bool) (s : State) : State := if told then s else onRecord r (reportSkip r) s

/-- The commit of the next slot of downlink ring `r` begins: the commit run time is read, then the steps of R96. -/
def beginSlot (r : Fin 16) (told : Bool) (s : State) : State :=
  let g := s.ring r
  let s := dropStale r (slotOf g g.prod) g.prod s
  let u := skipStep r told s
  if s.heldBehind u .rmn then
    setMidway r (some { runTime := s.now, measured := false, told := true, givenUp := false }) u
  else measureSlot r s.now (told || decide (s.rpw.events.length < u.rpw.events.length)) u

/-- The commit of the next slot of downlink ring `r` (R96), from its beginning or from the step that held it. -/
def commitDownlink (r : Fin 16) (s : State) : State :=
  match s.rmn.midway[r] with
  | none => beginSlot r false s
  | some h =>
    let s := setMidway r none s
    if h.givenUp then beginSlot r h.told s
    else if h.measured then releaseRecord r s
    else measureSlot r h.runTime h.told s

/-- The commit of ring `r`'s next slot is not held behind an event, or need not be held any longer (R96; log 53). -/
def State.slotFree (s : State) (r : Fin 16) : Bool :=
  match s.rmn.midway[r] with
  | none => true
  | some h => h.givenUp || s.eventRoom .rmn

/-- The next slot of downlink ring `r` can commit, or go on with its commit, now (R41, R96). -/
def State.downlinkCommitDue (s : State) (r : Fin 16) : Bool :=
  !s.pins.inReset && s.working && s.slotsLeft r && (s.ring r).desc.dir == .downlink && !s.blocked .rmn && s.slotFree r

end Sys2Proof.Machine
end

