-- ==== Sys2Proof/Machine/Sweep.lean ====
section
/-! DEFINITION. The timebase and the sweep (08_clocks_and_the_sweep.md): the time commands, the latched select and
period, triggers, the beginning, the cursor and the end of a sweep. -/

namespace Sys2Proof.Machine

/-! ## Site time (R154, R155) -/

/-- The offset changes to `o`, with TIME_SET; `code` is 1 SET, 2 ADJUST (R155). -/
def setOffset (code : Nat) (o : Word64) (s : State) : State :=
  let s' := s.onTbs fun t => { t with offset := o }
  s'.raise .tbs .timeSet .part 0 code (low48 s.site) (low48 s'.site)

/-- SET_TIME (R154): bytes 8–13 site time. -/
def doSetTime (q : Record) (s : State) : State × Status :=
  (setOffset 1 (BitVec.ofNat 64 (rdLe q 8 6) - BitVec.ofNat 64 s.now) s, .done)

/-- ADJUST_TIME (R154): bytes 8–11 signed microseconds. -/
def doAdjustTime (q : Record) (s : State) : State × Status :=
  (setOffset 2 (s.tbs.offset + BitVec.ofInt 64 (signed 32 (rdLe q 8 4))) s, .done)

/-! ## Select, period and countdown (R157) -/

/-- The end time one period of `sec` seconds from now (R157). -/
def periodEnd (sec : Nat) (s : State) : Nat := s.now + sec * 1000000

/-- The countdown after the shadow's select and period are latched (R157). -/
def latchedCountdown (c : Cfg) (s : State) : Option Nat :=
  if c.sweepSel = .period then
    if s.tbs.latchedSel ≠ .period ∨ s.tbs.latchedPeriod ≠ c.sweepPeriod then some (periodEnd c.sweepPeriod s)
    else s.tbs.countdown
  else none

/-- The select and period are taken from the shadow (R157). -/
def latchSelect (s : State) : State :=
  let c := s.ccu.cfg
  s.onTbs fun t =>
    { t with latchedSel := c.sweepSel, latchedPeriod := c.sweepPeriod, countdown := latchedCountdown c s }

/-- A changed select or period has been applied to the shadow (R157). -/
def selectChanged (s : State) : State := if s.tbs.sweeping then s else latchSelect s

/-! ## Triggers and the sweep record (R158 to R163) -/

/-- A sweep begins (R160). -/
def beginSweep (s : State) : State :=
  let c := s.ccu.cfg
  s.onTbs fun t =>
    { t with
      sweeping := true
      restart := false
      sweepStart := s.site
      rangeStart := c.rangeStart
      rangeEnd := c.rangeEnd
      phase := .directory
      cursor := 0
      refreshing := false
      visiting := false }

/-- A trigger that finds a sweep in progress (R158). -/
def overrun (src : TrigSel) (s : State) : State :=
  let n := satInc Config.max32 s.tbs.overruns
  (s.onTbs fun t => { t with restart := true, overruns := n }).raise .tbs .sweepOverrun .part n (trigCode src)
    (phaseCode s.tbs.phase) s.tbs.cursor

/-- A trigger of source `src` (R158). -/
def sweepTrigger (src : TrigSel) (s : State) : State :=
  match s.ccu.part with
  | .dormant | .initialising => s
  | .running => if s.tbs.sweeping then overrun src s else beginSweep s
  | .suspending | .suspended => s.onTbs fun t => { t with restart := true }

/-- SWEEP_NOW (R159). -/
def doSweepNow (_q : Record) (s : State) : State × Status := (sweepTrigger .command s, .done)

/-- The end of a sweep (R162). -/
def endSweep (s : State) : State :=
  let s := latchSelect (s.onTbs fun t => { t with completed := t.completed + 1, sweeping := false })
  if s.tbs.restart ∧ s.running then beginSweep s else s

/-- The sweep at the part's entry to RUNNING (R163). -/
def resumeSweep (s : State) : State :=
  if !s.tbs.sweeping ∧ s.tbs.restart then beginSweep s else s

/-- The cursor moves to the next item, and past the last item of a phase to the next phase (R160, R161). The REFRESH
phase moves as its sections join the injection queue. -/
def advanceSweep (s : State) : State :=
  s.onTbs fun t =>
    match t.phase with
    | .directory =>
      if t.cursor = 255 then { t with phase := .reefer, cursor := t.rangeStart } else { t with cursor := t.cursor + 1 }
    | .reefer =>
      if t.cursor = t.rangeEnd then { t with phase := .grid, cursor := 0 }
      else { t with cursor := (t.cursor + 1) % 2048 }
    | .grid => if t.cursor = 63 then { t with phase := .refresh, cursor := 0 } else { t with cursor := t.cursor + 1 }
    | .refresh => t

/-- An event of the visit under way has not been taken, or the report writer waits for a place in the injection queue, as it
does while the visit's records or digest have not joined (R160; log 37). -/
def State.visitOpen (s : State) : Bool := (s.rpw.events.any fun q => q.ofVisit) || s.waits .rpw

/-- A visit of phase `p` by block `b` can be taken now, or the one under way can end (R160, R163, R183; log 37). -/
def State.visitDue (s : State) (p : SweepPhase) (b : Block) : Bool :=
  !s.pins.inReset && s.tbs.sweeping && s.tbs.phase == p && !s.tbs.refreshing && !s.blocked .tbs && !s.blocked b &&
    if s.tbs.visiting then !s.visitOpen else s.running

/-- The period countdown has expired (R157). -/
def State.periodDue (s : State) : Bool :=
  !s.pins.inReset && !s.blocked .tbs &&
    match s.tbs.countdown with
    | some e => decide (e ≤ s.now)
    | none => false

end Sys2Proof.Machine
end

