-- ==== Sys2Proof/Machine/PartState.lean ====
section
/-! DEFINITION. The part states and the job restart (09_control_area_configuration_and_start_up.md, R170 to R176), and the
beginning and end of a snapshot (R143, R145, R146). -/

namespace Sys2Proof.Machine

/-! ## Snapshots -/

/-- SNAPSHOT_COVERAGE begins a snapshot (R143). -/
def beginSnapshot (s : State) : State :=
  let g := s.cvm.gen + 1
  (s.onCvm fun m => { m with snapRunning := true, nextBin := 0, copied := 0, gen := g }).ask .cvm .snapOpening

/-- A row that waits for a place in the injection queue is abandoned (R146). -/
def dropRows (s : State) : State :=
  s.onLif fun l =>
    { l with injWaiting := l.injWaiting.filter fun w => match w.2 with
        | .snapRow _ => false
        | _ => true }

/-- The snapshot ends with outcome `o` (R145, R146): outcome and count, generation, closing write. The command in progress has
its status once the closing write has joined (R16, R180). -/
def endSnapshot (o : SnapOutcome) (s : State) : State :=
  let g := s.cvm.gen + 1
  let s := (dropRows s).onCvm fun m => { m with snapRunning := false, outcome := o, gen := g }
  (s.ask .cvm .snapFields).ask .cvm .snapClosing

/-- The closing write of a snapshot has joined, and the command has the status of its outcome (R145, R146, R180). -/
def closeSnapshot (s : State) : State := completeCommand (if s.cvm.outcome = .done then .done else .partialDone) s

/-- A snapshot in progress ends PARTIAL (R146). -/
def abortSnapshot (s : State) : State := if s.cvm.snapRunning then endSnapshot .partialRows s else s

/-! ## Part state changes (R175) -/

/-- The part record of a change to `part` at site time `site` (11, status page, 0x000), with the restart generation as
applied now. -/
def partRecordBytes (part : PartState) (site : Word64) (s : State) : List Byte :=
  leBytes 1 (partCode part) ++ leBytes 1 s.ccu.cfg.restartGen ++ siteBytes site

/-- The part record is asked for, with the state and the time of this change (R175, R176; log 24). -/
def askPartRecord (s : State) : State := s.ask .ccu (.partRecord s.ccu.part s.ccu.lastChange)

/-- The part takes state `new` (R175). -/
def changePart (new : PartState) (cause : ChangeCause) (s : State) : State :=
  let old := s.ccu.part
  askPartRecord ((s.onCcu fun c => { c with part := new, lastChange := s.site }).raise .ccu .stateChanged .part
    (partCode new) (partCode old) s.ccu.cfg.restartGen (changeCode cause))

/-- RUN is applied on in DORMANT (R170, R171): the three index reads are requested. That the part record is requested before
them is the model's choice (log 49). -/
def enterInitialising (s : State) : State :=
  (((changePart .initialising .runOn s).ask .ccu (.initRead 0)).ask .ccu (.initRead 1)).ask .ccu (.initRead 2)

/-- A drain start kept through the suspension takes effect (R124, R172). -/
def resumeDrain (s : State) : State :=
  if s.rfm.startKept then startDrain (s.onRfm fun m => { m with startKept := false }) else s

/-- The part enters RUNNING (R172). That the part record is requested before the ring records and baseline reads of the rings
admitted is the model's choice (log 49). -/
def enterRunning (cause : ChangeCause) (s : State) : State :=
  let s := admitRings (changePart .running cause s)
  resumeDrain (resumeSweep (s.onCsv fun v => v.map (resumeCrane s.now)))

/-- A held-write slot at the entry to SUSPENDING (R12, R173): released where no commit of its ring is in progress, or its
ring is ENABLING. -/
def suspendSlot (r : Fin 16) (s : State) : State :=
  if (s.slot r).status = .holding ∧ ((s.ring r).commit = none ∨ (s.ring r).state = .enabling) then
    releaseWithoutCommit r s
  else s

/-- RUN is applied off in RUNNING (R173). That the part record is requested before a snapshot's closing writes (log 49), and that
the slots are released in ascending ring number (log 55), are the model's choices. -/
def enterSuspending (s : State) : State :=
  abortSnapshot ((List.finRange 16).foldl (fun s r => suspendSlot r s) (changePart .suspending .runOff s))

/-- Ring `r` at the entry to SUSPENDED (R7, R29, R99): no slot map, no FILLING buffer, no tracker, no window. Its commit has
come to its end (log 43). -/
def suspendRing (r : Fin 16) (s : State) : State := closeWindows r (clearSlots r s)

/-- SUSPENDING has drained (R173, R174); with RUN on the part goes on to RUNNING at once. -/
def enterSuspended (s : State) : State :=
  let s := (List.finRange 16).foldl (fun s r => suspendRing r s) (changePart .suspended .drained s)
  let s := s.onCsv fun v => v.map fun c => { c with countdown := none }
  if s.ccu.cfg.run then enterRunning .runOn s else s

/-- A changed RUN has been applied (R170 to R174). -/
def runChanged (s : State) : State :=
  match s.ccu.part, s.ccu.cfg.run with
  | .dormant, true => enterInitialising s
  | .suspended, true => enterRunning .runOn s
  | .running, false => enterSuspending s
  | _, _ => s

/-! ## Job restart (R176) -/

/-- A ring's runtime record at a job restart (R30). -/
def restartRing (g : Ring) : Ring := { g with prod := 0, cons := 0, above := false, slotMap := [], resyncs := 0 }

/-- The ring monitor at a job restart (R30, R88). -/
def restartRmn (m : Rmn) : Rmn :=
  { m with
    rings := m.rings.map restartRing
    buffers := m.buffers.map fun b => { b with st := .free }
    exhausted := false
    dispatch := []
    paused := []
    handling := none
    trackers := m.trackers.map fun t => { t with st := .free }
    midway := Vector.replicate 16 none }

/-- The coverage mapper at a job restart (R129): the snapshot generation is kept. -/
def restartCvm (m : Cvm) : Cvm := { Cvm.reset with gen := m.gen }

/-- The link interface at a job restart (R7, R22). That a request which waits for the injection queue goes on waiting is the
model's choice (log 56). -/
def restartLif (l : Lif) : Lif :=
  { l with prodShadow := Vector.replicate 16 [], consShadow := Vector.replicate 16 [] }

/-- A job restart (R176). -/
def jobRestart (s : State) : State :=
  askPartRecord
    { s with
      tdr := .reset
      csv := Vector.replicate 32 .reset
      rfm := .reset
      cvm := restartCvm s.cvm
      rmn := restartRmn s.rmn
      lif := restartLif s.lif }

end Sys2Proof.Machine
end

