-- ==== Sys2Proof/Machine/Shadow.lean ====
section
/-! DEFINITION. Control capture (09, R166 to R169): the fields of the configuration block (11, configuration block), the
clamp, the comparison and the locks of R167, the ring descriptors (R23, R25), and the capture of a host-page write. -/

namespace Sys2Proof.Machine

/-! ## The fields of the configuration block -/

/-- A field: its width in bytes, its applied value, the clamp of a written value, and the update of the shadow. -/
structure Field where
  width : Nat
  get : Cfg → Int
  clamp : Cfg → Nat → Int
  put : Int → Cfg → Cfg

def ofBool (b : Bool) : Int := if b then 1 else 0

/-- An on/off field: on for any nonzero byte (R167). -/
def onOff (get : Cfg → Bool) (put : Bool → Cfg → Cfg) : Field :=
  { width := 1, get := fun c => ofBool (get c), clamp := fun _ v => ofBool (v != 0), put := fun v => put (v != 0) }

/-- A numeric field of `w` bytes clamped to `lo … hi` (R168). -/
def numeric (w lo hi : Nat) (get : Cfg → Nat) (put : Nat → Cfg → Cfg) : Field :=
  { width := w, get := fun c => get c, clamp := fun _ v => clampNat lo hi v, put := fun v => put v.toNat }

/-- A signed byte field clamped to −64 … the bound that the shadow gives (R134, R168). -/
def signedByte (top : Cfg → Int) (get : Cfg → Int) (put : Int → Cfg → Cfg) : Field :=
  { width := 1, get := get, clamp := fun c v => clampInt (-64) (top c) (signed 8 v), put := put }

/-- The sweep trigger select of a code (11, enumerations): any other code takes the pin-reset value (R167). -/
def trigOf (v : Nat) : TrigSel := if v = 1 then .period else if v = 2 then .pin else .command

/-- The sweep trigger select. -/
def selectField : Field :=
  { width := 1
    get := fun c => trigCode c.sweepSel
    clamp := fun _ v => trigCode (trigOf v)
    put := fun v c => { c with sweepSel := trigOf v.toNat } }

/-- The fields below 0x100 (11, configuration block). -/
def globalField (off : Nat) : Option Field :=
  match off with
  | 0x000 => some (onOff (fun c => c.run) fun v c => { c with run := v })
  | 0x001 => some (numeric 1 0 255 (fun c => c.restartGen) fun v c => { c with restartGen := v })
  | 0x002 => some (onOff (fun c => c.craneEn) fun v c => { c with craneEn := v })
  | 0x003 => some (onOff (fun c => c.reeferEn) fun v c => { c with reeferEn := v })
  | 0x004 => some (onOff (fun c => c.coverageEn) fun v c => { c with coverageEn := v })
  | 0x005 => some { numeric 1 0 255 (fun c => c.kindMask) (fun v c => { c with kindMask := v }) with
      clamp := fun _ v => (v % 32 : Nat) }
  | 0x006 => some (numeric 1 0 255 (fun c => c.domain) fun v c => { c with domain := v })
  | 0x007 => some (onOff (fun c => c.domainCheck) fun v c => { c with domainCheck := v })
  | 0x008 => some (numeric 1 0 255 (fun c => c.version) fun v c => { c with version := v })
  | 0x009 => some (numeric 1 1 15 (fun c => c.passShare) fun v c => { c with passShare := v })
  | 0x00A => some (onOff (fun c => c.attnEn) fun v c => { c with attnEn := v })
  | 0x00B => some (onOff (fun c => c.attnDigest) fun v c => { c with attnDigest := v })
  | 0x00C => some selectField
  | 0x00E => some (numeric 2 1 3600 (fun c => c.sweepPeriod) fun v c => { c with sweepPeriod := v })
  | 0x010 => some (numeric 2 0 2047 (fun c => c.rangeStart) fun v c => { c with rangeStart := v })
  | 0x012 => some (numeric 2 0 2047 (fun c => c.rangeEnd) fun v c => { c with rangeEnd := v })
  | 0x014 => some (numeric 2 1 1440 (fun c => c.learnAge) fun v c => { c with learnAge := v })
  | 0x016 => some (numeric 1 0 7 (fun c => c.defaultProfile) fun v c => { c with defaultProfile := v })
  | 0x018 => some (numeric 2 0 65535 (fun c => c.digestPeriod) fun v c => { c with digestPeriod := v })
  | 0x01A => some (numeric 2 0 720 (fun c => c.retireAge) fun v c => { c with retireAge := v })
  | 0x01C => some (numeric 4 1 16777215 (fun c => c.jitterLimit) fun v c => { c with jitterLimit := v })
  | 0x040 => some (numeric 4 0 4294967295 (fun c => c.origin) fun v c => { c with origin := v })
  | 0x044 => some (numeric 2 1000 10000 (fun c => c.binWidth) fun v c => { c with binWidth := v })
  | 0x046 => some (numeric 1 1 64 (fun c => c.binCount) fun v c => { c with binCount := v })
  | 0x047 => some (numeric 1 1 16 (fun c => c.cellCount) fun v c => { c with cellCount := v })
  | 0x048 => some (numeric 1 1 6 (fun c => c.kcfg) fun v c => { c with kcfg := v })
  | 0x049 => some (numeric 1 1 16 (fun c => c.minSamples) fun v c => { c with minSamples := v })
  | 0x04A => some (signedByte (fun _ => 63) (fun c => c.goodDb) fun v c => { c with goodDb := v, weakDb := min c.weakDb v })
  | 0x04B => some (signedByte (fun c => c.goodDb) (fun c => c.weakDb) fun v c => { c with weakDb := v })
  | 0x04C => some (numeric 1 0 255 (fun c => c.switchHyst) fun v c => { c with switchHyst := v })
  | 0x04D => some (numeric 1 0 255 (fun c => c.loadLimit) fun v c => { c with loadLimit := v })
  | 0x04E => some (numeric 2 1 1440 (fun c => c.ageLimit) fun v c => { c with ageLimit := v })
  | 0x050 => some (signedByte (fun _ => 63) (fun c => c.penaltyMargin) fun v c => { c with penaltyMargin := v })
  | _ => none

/-- A numeric field of profile `p` (R105). -/
def profileNumeric (p : Fin 8) (w : Nat) (lo : Nat) (hi : Profile → Nat) (get : Profile → Nat)
    (put : Nat → Profile → Profile) : Field :=
  { width := w
    get := fun c => get c.profiles[p]
    clamp := fun c v => clampNat lo (hi c.profiles[p]) v
    put := fun v c => { c with profiles := upd c.profiles p (put v.toNat) } }

/-- The field at offset `o` of profile `p` (11, profile; R105). -/
def profileField (p : Fin 8) (o : Nat) : Option Field :=
  match o with
  | 0 => some (profileNumeric p 1 0 (fun _ => 255) (fun q => q.tolHi) fun v q => { q with tolHi := v })
  | 1 => some (profileNumeric p 1 0 (fun _ => 255) (fun q => q.tolLo) fun v q => { q with tolLo := v })
  | 2 => some (profileNumeric p 3 0 (fun q => q.breachDose) (fun q => q.warnDose) fun v q => { q with warnDose := v })
  | 5 => some (profileNumeric p 3 0 (fun _ => 16777215) (fun q => q.breachDose) fun v q => { q with breachDose := v })
  | 8 => some (profileNumeric p 2 60 (fun _ => 7200) (fun q => q.interval) fun v q => { q with interval := v })
  | 10 => some (profileNumeric p 1 2 (fun _ => 8) (fun q => q.missFactor) fun v q => { q with missFactor := v })
  | 12 => some (profileNumeric p 2 60 (fun _ => 14400) (fun q => q.holdCap) fun v q => { q with holdCap := v })
  | _ => none

/-- The field of the configuration block, but for the ring descriptors, that begins at `off`. -/
def configField (off : Nat) : Option Field :=
  if off < 0x100 then globalField off
  else if off < 0x180 then profileField (Fin.ofNat 8 ((off - 0x100) / 16)) ((off - 0x100) % 16)
  else none

/-! ## Locks (R167) -/

/-- The lock in force for a value `v` of the field at `off` (R167). -/
def State.lockOf (s : State) (off : Nat) (v : Int) : Option LockCause :=
  if off = 0x001 then if s.ccu.part = .suspended then none else some .state
  else if off = 0x002 then if v = 0 ∧ s.anyBound then some .crane else none
  else if off = 0x040 ∨ off = 0x044 ∨ off = 0x046 ∨ off = 0x047 then
    if s.ccu.cfg.coverageEn then some .coverage else none
  else none

/-- CONFIG_LOCKED (R167): the offset; the value written, the value kept, the cause. -/
def configLocked (off : Nat) (written kept : Int) (cause : LockCause) (s : State) : State :=
  s.raise .ccu .configLocked .field off written kept (lockCode cause)

/-- What follows a changed value of the field at `off`: RUN, the restart generation, COVERAGE_EN, the sweep's select and
period (R146, R148, R157, R170 to R176). -/
def afterChange (off : Nat) (s : State) : State :=
  if off = 0x000 then runChanged s
  else if off = 0x001 then jobRestart s
  else if off = 0x004 then if s.ccu.cfg.coverageEn then evalAll s else abortSnapshot s
  else if off = 0x00C ∨ off = 0x00E then selectChanged s
  else s

/-- A value reaches the field at `off` (R167): clamped, compared, tested against the locks, applied. -/
def applyField (off : Nat) (f : Field) (v : Nat) (s : State) : State :=
  let new := f.clamp s.ccu.cfg v
  let old := f.get s.ccu.cfg
  if new = old then s
  else
    match s.lockOf off new with
    | some cause => configLocked off new old cause s
    | none => afterChange off (s.onCcu fun c => { c with cfg := f.put new c.cfg })

/-! ## Ring descriptors (R23, R25) -/

/-- The width of the ring descriptor field at offset `o` (11, ring descriptor). -/
def ringWidth (o : Nat) : Option Nat :=
  if o ≤ 7 then some 1
  else if o = 8 ∨ o = 16 ∨ o = 20 then some 4
  else if o = 12 ∨ o = 14 ∨ o = 24 ∨ o = 26 then some 2
  else none

/-- The applied value of the field at `o`. -/
def ringGet (d : RingDesc) (o : Nat) : Nat :=
  match o with
  | 0 => d.enable.toNat
  | 1 => if d.dir = .downlink then 1 else 0
  | 2 => d.prodInit
  | 3 => d.receipts.toNat
  | 4 => d.check.toNat
  | 5 => d.stamp.toNat
  | 6 => d.steer.toNat
  | 7 => d.hold.toNat
  | 8 => d.base
  | 12 => d.slotSize
  | 14 => d.slotCount
  | 16 => d.prodAddr
  | 20 => d.consAddr
  | 24 => d.high
  | 26 => d.low
  | _ => 0

/-- The descriptor with the value `v` written to the field at `o`; the watermarks are clamped whenever one is applied
(R25). -/
def ringPut (d : RingDesc) (o v : Nat) : RingDesc :=
  match o with
  | 0 => { d with enable := v != 0 }
  | 1 => { d with dir := if v = 1 then .downlink else .uplink }
  | 2 => { d with prodInit := v }
  | 3 => { d with receipts := v != 0 }
  | 4 => { d with check := v != 0 }
  | 5 => { d with stamp := v != 0 }
  | 6 => { d with steer := v != 0 }
  | 7 => { d with hold := v != 0 }
  | 8 => { d with base := v }
  | 12 => { d with slotSize := v }
  | 14 => { d with slotCount := v }
  | 16 => { d with prodAddr := v }
  | 20 => { d with consAddr := v }
  | 24 => clampMarks { d with high := v }
  | 26 => clampMarks { d with low := v }
  | _ => d

/-- The ring descriptor fields that are never locked: enable and the watermarks (R25). -/
def ringUnlocked (o : Nat) : Bool := o == 0 || o == 24 || o == 26

/-- A value reaches the descriptor field at offset `o` of ring `r` (R23 to R28, R167). -/
def applyRing (r : Fin 16) (o v : Nat) (s : State) : State :=
  let g := s.ring r
  let d := ringPut g.desc o v
  let new := ringGet d o
  let old := ringGet g.desc o
  if new = old then s
  else if g.state.claims ∧ !ringUnlocked o then configLocked (0x200 + 32 * r.val + o) new old .ring s
  else
    let s := s.onRing r fun g => { g with desc := d }
    if o = 0 ∧ !d.enable then enableOff r s else retestRing r s

/-! ## Host pages (R6, R166) -/

/-- The field of the configuration block that begins at `off`: its width. -/
def fieldWidth (off : Nat) : Option Nat :=
  if 0x200 ≤ off ∧ off < 0x400 then ringWidth ((off - 0x200) % 32) else (configField off).map fun f => f.width

/-- The start of the field that holds the byte at `off` of the configuration block, if any (R192). -/
def fieldStart (off : Nat) : Option Nat :=
  (List.range 4).findSome? fun k =>
    if k ≤ off then
      match fieldWidth (off - k) with
      | some w => if k < w then some (off - k) else none
      | none => none
    else none

/-- A completed value reaches the field at `off` of the configuration block (R166). -/
def applyConfig (off v : Nat) (s : State) : State :=
  if 0x200 ≤ off ∧ off < 0x400 then applyRing (Fin.ofNat 16 ((off - 0x200) / 32)) ((off - 0x200) % 32) v s
  else
    match configField off with
    | some f => applyField off f v s
    | none => s

/-- Word assembly of the host-page field of `width` bytes at area offset `start` (R6); `w`: bytes written, by area
offset. -/
def assembleHost (start width : Nat) (w : List (Nat × Byte)) (s : State) : State × Option Nat :=
  let res := assemble width (bytesIn start width s.lif.hostShadow) (bytesIn start width w)
  let rest := s.lif.hostShadow.filter fun ob => ob.1 < start || start + width ≤ ob.1
  (s.onLif fun l => { l with hostShadow := res.1.foldl (fun m ob => mapPut (start + ob.1) ob.2 m) rest }, res.2)

/-- The configuration block's bytes of a write, field by field in ascending address order (R166). -/
def captureConfig (w : List (Nat × Byte)) (s : State) : State :=
  ((w.filter fun ob => ob.1 < 0x400).filterMap fun ob => fieldStart ob.1).dedup.foldl (fun s off =>
    let res := assembleHost off ((fieldWidth off).getD 1) w s
    match res.2 with
    | some v => applyConfig off v res.1
    | none => res.1) s

/-- Put `bs` into record `n` of the command ring shadow from offset `o` on (R166). -/
def putRecord (n : Fin 256) (o : Nat) (bs : List Byte) (s : State) : State :=
  s.onCcu fun c =>
    { c with
      commandRing := upd c.commandRing n fun q =>
        bs.zipIdx.foldl (fun q bj => q.setIfInBounds (o + bj.2) bj.1) q }

/-- A value arrives at the field of record `n` that holds offset `o`, once a write's bytes complete it (R6, R166). The layout is
that of the record's code as the shadow holds it (log 18). -/
def captureArgument (n : Fin 256) (w : List (Nat × Byte)) (s : State) (o : Nat) : State :=
  let field := recordField (commandOf (rdLe s.ccu.commandRing[n] 0 1)) o
  let res := assembleHost (0x1000 + 64 * n.val + field.1) field.2 w s
  match res.2 with
  | some v => putRecord n field.1 (leBytes field.2 v) res.1
  | none => res.1

/-- The bytes of a write in record `n`: the code first, then the other fields in ascending address order (R166). -/
def captureRecord (w : List (Nat × Byte)) (s : State) (n : Fin 256) : State :=
  let bytes := bytesIn (0x1000 + 64 * n.val) 64 w
  let s := match bytes.lookup 0 with
    | some code => putRecord n 0 [code] s
    | none => s
  let fields := (bytes.map fun ob => (recordField (commandOf (rdLe s.ccu.commandRing[n] 0 1)) ob.1).1).dedup
  fields.foldl (captureArgument n w) s

/-- The command ring's bytes of a write, record by record in ascending address order (R166). -/
def captureCommands (w : List (Nat × Byte)) (s : State) : State :=
  ((bytesIn 0x1000 0x4000 w).map fun ob => Fin.ofNat 256 (ob.1 / 64)).dedup.foldl (captureRecord w) s

/-- An index-page value (R166): 0 command producer, 1 event consumer, 2 digest consumer. -/
def indexValue (k : Fin 3) (v : Word) (s : State) : State :=
  match s.ccu.part with
  | .dormant => s
  | .initialising => s.onCcu fun c => { c with initKept := c.initKept.set k (some v) }
  | .running | .suspending | .suspended => handIndex k v s

/-- The index page's bytes of a write, word by word in ascending address order (R166). -/
def captureIndices (w : List (Nat × Byte)) (s : State) : State :=
  (List.finRange 3).foldl (fun s k =>
    let start := 0x5000 + 4 * k.val
    if bytesIn start 4 w = [] then s
    else
      let res := assembleHost start 4 w s
      match res.2 with
      | some v => indexValue k (BitVec.ofNat 32 v) res.1
      | none => res.1) s

/-- A write's bytes in the host pages are captured with its initiator `x` (R4, R6, R166); `w`: the bytes written, by absolute
address. -/
def captureHost (x : Fin 16) (w : List (Nat × Byte)) (s : State) : State :=
  let inArea := bytesIn s.areaBase 0x6000 w
  if inArea = [] then s
  else
    captureIndices inArea (captureCommands inArea (captureConfig inArea
      (s.onCcu fun c => { c with capturedFrom := some x })))

end Sys2Proof.Machine
end

