-- ==== Sys2Proof/Machine/StatusPage.lean ====
section
/-! DEFINITION. The sections of the status page (R177; 11, status page). -/

namespace Sys2Proof.Machine

/-- The section at offset 0x010: E, Dp, done index, lost count (R189). -/
def indexSection (s : State) : List Byte :=
  leBytes 4 s.rpw.evProd.toNat ++ leBytes 4 s.rpw.dgProd.toNat ++ leBytes 4 s.rpw.done.toNat ++ satBytes 4 s.rpw.lost

/-- The snapshot fields at 0x020 (R143 to R146). -/
def snapSection (s : State) : List Byte :=
  leBytes 4 s.cvm.gen.toNat ++ leBytes 1 (outcomeCode s.cvm.outcome) ++ leBytes 1 s.cvm.copied

/-- The sweep section at 0x040 (R164), with `completed` as its sweeps completed count. -/
def sweepSection (completed : Word) (s : State) : List Byte :=
  let t := s.tbs
  leBytes 4 completed.toNat ++ satBytes 4 t.overruns ++ siteBytes t.sweepStart ++
    leBytes 2 (if t.restart then 1 else 0) ++ leBytes 8 (low48 s.site) ++ leBytes 8 t.offset.toNat

/-- The directory section at 0x060 (R59). -/
def directorySection (s : State) : List Byte :=
  leBytes 2 (s.countTerms .free) ++ leBytes 2 (s.countTerms .learned) ++ leBytes 2 (s.countTerms .registered) ++
    leBytes 10 0 ++ s.tdr.attach.toList.flatMap fun n => satBytes 2 n

/-- The reefer section at 0x090 (R104). -/
def reeferSection (s : State) : List Byte :=
  leBytes 2 (s.countReefers fun _ => true) ++ leBytes 2 (s.countReefers fun r => r.missing) ++
    leBytes 2 (s.countReefers fun r => r.cond == .warn) ++ leBytes 2 (s.countReefers fun r => r.cond == .breach) ++
    leBytes 2 (s.countReefers fun r => r.pending)

/-- The coverage section at 0x0A0 (R150). -/
def coverageSection (s : State) : List Byte :=
  leBytes 1 (s.binsInUse.countP fun b => b.hole) ++ leBytes 1 (s.binsInUse.countP fun b => b.pref.isSome) ++
    leBytes 2 (s.countCells .good) ++ leBytes 2 (s.countCells .weak) ++ leBytes 2 0 ++ satBytes 4 s.cvm.folded ++
    satBytes 4 s.cvm.discarded

/-- The record of a ring (R177). -/
def ringRecordBytes (g : Ring) : List Byte :=
  leBytes 1 (ringStateCode g.state) ++ leBytes 1 (rejectCode g.cause) ++ satBytes 2 (occupancy g) ++
    leBytes 4 g.prod.toNat ++ leBytes 4 g.cons.toNat ++ satBytes 4 g.resyncs

/-- The summary of a crane context (R87; 11, crane summary). -/
def craneBytes (c : Crane) : List Byte :=
  let q := c.rtt.getD { last := 0, min := 0, max := 0, srtt := 0 }
  leBytes 1 (craneCode c.st) ++ leBytes 1 (holdCode c.holdCause) ++
    leBytes 1 ((if c.ready then 1 else 0) + (if c.estop then 2 else 0) + (if c.rtt.isSome then 4 else 0)) ++
    leBytes 1 (optFin c.bin) ++ leBytes 2 c.tid.toNat ++ leBytes 1 c.dirIndex.val ++ leBytes 1 c.good ++
    leBytes 1 c.miss ++ leBytes 1 c.cmds.length ++ leBytes 2 0 ++ satBytes 4 c.lost ++ satBytes 4 c.duplicate ++
    satBytes 4 c.stale ++ satBytes 4 c.unanswered ++ satBytes 4 q.last ++ satBytes 4 q.min ++ satBytes 4 q.max ++
    satBytes 4 q.srtt ++ satBytes 4 c.jitter ++ leBytes 16 0

/-- The summaries of the 32 contexts, at 0x400. -/
def craneSection (s : State) : List Byte := s.csv.toList.flatMap craneBytes

/-- The ring records, at 0x100. -/
def ringSection (s : State) : List Byte := s.rmn.rings.toList.flatMap ringRecordBytes

/-- `bs`, and zero bytes up to `n` (11, status page: every other byte is zero). -/
def padTo (n : Nat) (bs : List Byte) : List Byte := bs ++ List.replicate (n - bs.length) 0

/-- The whole status page (R171, R177; 11, status page). -/
def statusPage (s : State) : List Byte :=
  let a := padTo 0x10 (partRecordBytes s.ccu.part s.ccu.lastChange s) ++ indexSection s
  let b := padTo 0x40 (a ++ snapSection s)
  let c := padTo 0x60 (b ++ sweepSection s.tbs.completed s)
  let d := padTo 0x90 (c ++ directorySection s)
  let e := padTo 0xA0 (d ++ reeferSection s)
  let f := padTo 0x100 (e ++ coverageSection s)
  let g := padTo 0x400 (f ++ ringSection s)
  padTo 0x1000 (g ++ craneSection s)

/-- Where section `k` of a refresh lies in the status page, and its content (R164): 0 directory, 1 crane, 2 reefer,
3 coverage, 4 sweep. -/
def refreshSection (k : Fin 5) (s : State) : Nat × List Byte :=
  match k with
  | 0 => (0x060, directorySection s)
  | 1 => (0x400, craneSection s)
  | 2 => (0x090, reeferSection s)
  | 3 => (0x0A0, coverageSection s)
  | 4 => (0x040, sweepSection (s.tbs.completed + 1) s)

end Sys2Proof.Machine
end

