-- ==== Sys2Proof/Machine/Inject.lean ====
section
/-! DEFINITION. The injection queue (R16, R17): how a request becomes an entry, what the requesting block does as it joins,
and the places that free. -/

namespace Sys2Proof.Machine

/-! ## Entries -/

/-- A write entry at byte `off` of the control area. -/
def areaWrite (s : State) (b : Block) (off : Nat) (beats : List Beat) (ordered eventMark : Bool) (tag : InjTag) :
    InjEntry :=
  { block := b, addr := BitVec.ofNat 32 (s.areaBase + off), isRead := false, beats := beats, ordered := ordered,
    eventMark := eventMark, tag := tag }

/-- A one-beat read of the beat that holds the byte at address `a`. -/
def readEntry (b : Block) (a : Nat) (tag : InjTag) : InjEntry :=
  { block := b, addr := BitVec.ofNat 32 (a / 16 * 16), isRead := true, beats := [], ordered := false,
    eventMark := false, tag := tag }

/-- An entry joins the tail of the injection queue (R16). -/
def State.join (s : State) (e : InjEntry) : State := s.onLif fun l => { l with injQueue := l.injQueue ++ [e] }

/-- What is left of a request larger than 16 beats stands before every other request (R16). -/
def State.askFirst (s : State) (b : Block) (op : InjOp) : State :=
  s.onLif fun l => { l with injWaiting := (b, op) :: l.injWaiting }

/-- The bytes of one entry of a request larger than 16 beats (R16, R164, R171). That each takes 16 beats, so that the status page
is sixteen entries and the crane section eight, is the model's choice (log 61). -/
def chunkSize : Nat := 256

/-! ## The end of area initialisation (R171) -/

/-- The values kept in the initialisation record are handed to the report writer (R171; log 38). -/
def handKeptIndices (s : State) : State :=
  let kept := s.ccu.initKept
  (List.finRange 3).foldl (fun s k =>
    match kept[k] with
    | some v => handIndex k v s
    | none => s) (s.onCcu fun c => { c with initKept := Vector.replicate 3 none })

/-- The last entry of the status page write has joined (R171). -/
def finishInit (s : State) : State :=
  handKeptIndices (if s.ccu.cfg.run then enterRunning .initDone s else changePart .suspended .initDone s)

/-! ## The refresh (R164) -/

/-- The last entry of a refresh section has joined: the next section, or the end of the sweep (R162, R164). -/
def refreshDone (s : State) : State :=
  let s := s.onTbs fun t => { t with refreshing := false }
  if s.tbs.cursor = 4 then endSweep s else s.onTbs fun t => { t with cursor := t.cursor + 1 }

/-- The first `chunkSize` of `bytes` join at `off` as an entry of block `b`, and the rest is asked for. -/
def joinRefresh (b : Block) (off : Nat) (bytes : List Byte) (s : State) : State :=
  let s := s.join (areaWrite s b (0x8000 + off) (beatsOf (bytes.take chunkSize)) false false .plain)
  let rest := bytes.drop chunkSize
  if rest = [] then refreshDone s else s.askFirst b (.refreshRest (off + chunkSize) rest)

/-! ## Joining -/

/-- The output ring indices section joins, ordered (R189). -/
def joinIndices (mark : Bool) (s : State) : State :=
  s.join (areaWrite s .rpw 0x8010 (beatsOf (indexSection s)) true mark (.indices s.rpw.evProd s.rpw.dgProd))

/-- An event record joins at index E, and E rises by 1 (R183). That it joins though a consumer value behind Ec, taken while it
waited (R186), has left no slot free, is the model's choice (log 63). -/
def joinEvent (bytes : List Byte) (s : State) : State :=
  (s.join (areaWrite s .rpw (0x10000 + 32 * (s.rpw.evProd.toNat % 1024)) (beatsOf bytes) false true .plain)).onRpw
    fun r => { r with evProd := r.evProd + 1 }

/-- An EVENTS_LOST record has joined: the lost count becomes 0, and where the event that follows finds no room, it is lost
(R184; log 29). -/
def clearLost (thenLose : Option EventKind) (r : Rpw) : Rpw :=
  let r := { r with lost := 0, firstLost := none, lastLost := none }
  match thenLose with
  | some k => loseEvent k r
  | none => r

/-- The bins-copied count and the next bin rise by 1; after bin 63 the snapshot ends DONE (R144, R145). -/
def rowCopied (b : Fin 64) (s : State) : State :=
  let s := s.onCvm fun m => { m with copied := m.copied + 1, nextBin := m.nextBin + 1 }
  if b = 63 then endSnapshot .done s else s

/-- Request `op` of block `b` joins the injection queue as one entry, its content taken now, and the block goes on. That a
digest record joins though a consumer value behind Dc, taken while it waited (R188), has left no slot free, is the model's choice
(log 63). -/
def joinOp (b : Block) (op : InjOp) (s : State) : State :=
  match op with
  | .receipt c =>
    let g := s.ring c.ring
    let e : InjEntry :=
      { block := b, addr := BitVec.ofNat 32 (receiptAddr g.desc c.slot), isRead := false,
        beats := beatsOf (receiptBytes c), ordered := false, eventMark := false, tag := .receipt c.ring g.gen }
    finishSlot c ((s.join e).onRing c.ring fun g => { g with outstanding := g.outstanding + 1 })
  | .baselineRead r gen consumer =>
    let d := (s.ring r).desc
    s.join (readEntry b (if consumer then d.consAddr else d.prodAddr) (.baseline r gen consumer))
  | .initRead w => s.join (readEntry b (s.areaBase + 0x5000 + 4 * w.val) (.initRead w))
  | .ringRecord r =>
    s.join (areaWrite s b (0x8100 + 16 * r.val) (beatsOf (ringRecordBytes (s.ring r))) false false .plain)
  | .partRecord part site =>
    s.join (areaWrite s b 0x8000 (beatsOf (partRecordBytes part site s)) true false .plain)
  | .statusPage =>
    let page := statusPage s
    (s.join (areaWrite s b 0x8000 (beatsOf (page.take chunkSize)) true false
      (.indices s.rpw.evProd s.rpw.dgProd))).askFirst b (.statusRest chunkSize (page.drop chunkSize))
  | .statusRest off bytes =>
    let s := s.join (areaWrite s b (0x8000 + off) (beatsOf (bytes.take chunkSize)) false false .plain)
    let rest := bytes.drop chunkSize
    if rest = [] then finishInit s else s.askFirst b (.statusRest (off + chunkSize) rest)
  | .earlyRecord bytes last =>
    let s := joinEvent bytes s
    if last then s.ask .ccu .statusPage else s
  | .eventRecord bytes => joinEvent bytes s
  | .eventsLostRecord bytes thenLose => (joinEvent bytes s).onRpw (clearLost thenLose)
  | .indices mark => joinIndices mark s
  | .doneIndices => (joinIndices false s).onRpw fun r => { r with exec := .idle, result := none }
  | .digestRecord bytes =>
    (s.join (areaWrite s b (0x18000 + 32 * (s.rpw.dgProd.toNat % 1024)) (beatsOf bytes) false false .plain)).onRpw
      fun r => { r with dgProd := r.dgProd + 1 }
  | .commandStatus slot bytes =>
    (s.join (areaWrite s b (0x1000 + 64 * slot) [packBeat 1 bytes] false false .commandStatus)).onRpw
      fun r => { r with exec := .writingBack }
  | .snapOpening => s.join (areaWrite s b 0x8020 (beatsOf (leBytes 4 s.cvm.gen.toNat)) false false .plain)
  | .snapRow bin =>
    rowCopied bin (s.join (areaWrite s b (0x20000 + 256 * bin.val) (beatsOf (s.rowBytes bin)) false false .plain))
  | .snapFields =>
    s.join (areaWrite s b 0x8020
      [packBeat 4 (leBytes 1 (outcomeCode s.cvm.outcome) ++ leBytes 1 s.cvm.copied)] false false .plain)
  | .snapClosing =>
    closeSnapshot (s.join (areaWrite s b 0x8020 (beatsOf (leBytes 4 s.cvm.gen.toNat)) true false .plain))
  | .refresh k =>
    let q := refreshSection k s
    joinRefresh b q.1 q.2 s
  | .refreshRest off bytes => joinRefresh b off bytes s

/-! ## Places -/

/-- Waiting requests join, the one that waits longest first, for at most `n` places (R16). -/
def settleN : Nat → State → State
  | 0, s => s
  | n + 1, s =>
    match s.lif.injWaiting with
    | [] => s
    | w :: rest => settleN n (joinOp w.1 w.2 (s.onLif fun l => { l with injWaiting := rest }))

/-- Waiting requests join while the injection queue has places (R16). Every step ends with it. -/
def settle (s : State) : State := settleN (Config.injectionDepth - s.lif.injQueue.length) s

/-- The requests of block `b` go behind those of the blocks that have waited longer (R16). These include the requests
made as its last one joined: the part record at the end of initialisation goes behind the ring records and baseline reads asked
for after it, the model's choice (log 8, log 49). -/
def rotateWaiting (b : Block) (s : State) : State :=
  s.onLif fun l =>
    { l with injWaiting := (l.injWaiting.filter fun w => w.1 != b) ++ l.injWaiting.filter fun w => w.1 == b }

/-- An entry has left the injection queue: the block that has waited longest takes the place (R16; log 8). -/
def fillPlace (s : State) : State :=
  match s.lif.injWaiting with
  | [] => s
  | w :: rest =>
    rotateWaiting w.1 (joinOp w.1 w.2 (s.onLif fun l => { l with injWaiting := rest }))

/-- A step of the part: where it is due its effect comes about and the requests it made join; where it is not, nothing
changes (log 1). -/
def stepWhen (due : Bool) (body : State → State) (s : State) : State := if due then settle (body s) else s

end Sys2Proof.Machine
end

