-- ==== Sys2Proof/Machine/CommandSteps.lean ====
section
/-! DEFINITION. The host commands that the executor takes from the command ring shadow (R179, R180), each with the rule that
owns it. -/

namespace Sys2Proof.Machine

/-- A record of kind `k` is taken, where the executor can take it now (R179, R180). -/
def takeCommand (k : CommandKind) (enabled : Bool) (body : Record → State → State × Status) (s : State) :
    Host.Outcome State Fault Refusal :=
  .next (stepWhen (s.commandDue k) (runCommand enabled body) s)

/-- NOP (R180): no effect, DONE. -/
def execNop (s : State) : Host.Outcome State Fault Refusal := takeCommand .nop true (fun _ s => (s, .done)) s

/-- A code that is no command (R180 step 1). -/
def execUnknownCommand (s : State) : Host.Outcome State Fault Refusal :=
  takeCommand .unknown true (fun _ s => (s, .unknownCommand)) s

/-- SET_TIME (R154). -/
def execSetTime (s : State) : Host.Outcome State Fault Refusal := takeCommand .setTime true doSetTime s

/-- ADJUST_TIME (R154). -/
def execAdjustTime (s : State) : Host.Outcome State Fault Refusal := takeCommand .adjustTime true doAdjustTime s

/-- SWEEP_NOW (R159). -/
def execSweepNow (s : State) : Host.Outcome State Fault Refusal := takeCommand .sweepNow true doSweepNow s

/-- REGISTER_TERMINAL (R54, R55). -/
def execRegisterTerminal (s : State) : Host.Outcome State Fault Refusal :=
  takeCommand .registerTerminal true doRegister s

/-- DEREGISTER_TERMINAL (R56). -/
def execDeregisterTerminal (s : State) : Host.Outcome State Fault Refusal :=
  takeCommand .deregisterTerminal true doDeregister s

/-- BIND_CRANE (R62, R63). -/
def execBindCrane (s : State) : Host.Outcome State Fault Refusal :=
  takeCommand .bindCrane s.ccu.cfg.craneEn doBind s

/-- UNBIND_CRANE (R64). -/
def execUnbindCrane (s : State) : Host.Outcome State Fault Refusal :=
  takeCommand .unbindCrane s.ccu.cfg.craneEn doUnbind s

/-- FORCE_HOLD (R74). -/
def execForceHold (s : State) : Host.Outcome State Fault Refusal :=
  takeCommand .forceHold s.ccu.cfg.craneEn doForceHold s

/-- RELEASE_HOLD (R75). -/
def execReleaseHold (s : State) : Host.Outcome State Fault Refusal :=
  takeCommand .releaseHold s.ccu.cfg.craneEn doReleaseHold s

/-- ADD_REEFER (R121). -/
def execAddReefer (s : State) : Host.Outcome State Fault Refusal :=
  takeCommand .addReefer s.ccu.cfg.reeferEn doAddReefer s

/-- CLEAR_DOSE (R119). -/
def execClearDose (s : State) : Host.Outcome State Fault Refusal :=
  takeCommand .clearDose s.ccu.cfg.reeferEn doClearDose s

/-- RETIRE_REEFER (R120). -/
def execRetireReefer (s : State) : Host.Outcome State Fault Refusal :=
  takeCommand .retireReefer s.ccu.cfg.reeferEn doRetire s

/-- RESET_BIN (R142). -/
def execResetBin (s : State) : Host.Outcome State Fault Refusal :=
  takeCommand .resetBin s.ccu.cfg.coverageEn doResetBin s

/-- SNAPSHOT_COVERAGE is taken (R143, R180): the command stays in progress until its snapshot ends. -/
def takeSnapshot (s : State) : State :=
  let s := s.onRpw fun r => { r with exec := .executing, result := none }
  if s.ccu.cfg.coverageEn then beginSnapshot s else completeCommand .jobDisabled s

/-- SNAPSHOT_COVERAGE (R143 to R146). -/
def execSnapshotCoverage (s : State) : Host.Outcome State Fault Refusal :=
  .next (stepWhen (s.commandDue .snapshotCoverage) takeSnapshot s)

/-- The next row can be copied now (R144). -/
def State.rowDue (s : State) : Bool :=
  !s.pins.inReset && s.cvm.snapRunning && decide (s.cvm.nextBin < 64) && !s.blocked .cvm

/-- SNAPSHOT_ROW (R144, R145). -/
def execSnapshotRow (s : State) : Host.Outcome State Fault Refusal :=
  .next (stepWhen s.rowDue (fun s => s.ask .cvm (.snapRow (Fin.ofNat 64 s.cvm.nextBin))) s)

end Sys2Proof.Machine
end

