-- ==== Sys2Proof/WellFormed.lean ====
section
/-! DEFINITION. Which terms are commands at all: a transaction has the shape of R1 (00_scope.md, pins: a 32-bit byte
address aligned to a 16-byte beat, bursts of 1 to 16 beats). -/

namespace Sys2Proof

/-- The address is aligned to a beat and the burst has 1 to 16 beats (R1). -/
def burstShape (addr : Word) (burst : Nat) : Bool :=
  addr.toNat % 16 == 0 && 1 ≤ burst && burst ≤ 16

/-- A command is well formed when a transaction it carries has the shape of R1. -/
def Instr.wf : Instr → Bool
  | .ulinkWrite _ addr beats => burstShape addr beats.length
  | .ulinkRead _ addr burst => burstShape addr burst
  | _ => true

end Sys2Proof
end

