-- ==== Sys2Proof/Machine/LinkSteps.lean ====
section
/-! DEFINITION. The steps of the links (01_the_memory_path.md): U-link writes and reads, D-link grants, and memory's
answers. -/

namespace Sys2Proof.Machine

/-! ## Windows (R3) -/

/-- Ring `r`'s windows are active (R3). -/
def State.windows (s : State) (r : Fin 16) : Bool := (s.ring r).state.claims && s.working

/-- The byte at absolute address `a` lies in a part page (R3, R165). -/
def State.inPartPage (s : State) (a : Nat) : Bool :=
  let lo := s.areaBase
  (lo + 0x8000 ≤ a && a < lo + 0x9000) || (lo + 0x10000 ≤ a && a < lo + 0x24000)

/-- Bytes of ring `r`'s producer word are held now (R8). -/
def State.holdsNow (s : State) (r : Fin 16) : Bool :=
  let g := s.ring r
  (s.running && (g.state == .enabling || (g.state == .enabled && g.desc.holds))) ||
    (s.working && (s.slot r).status != .empty)

/-- The rings whose held-write slots take bytes of write `w` (R8). -/
def State.holders (s : State) (w : List (Nat × Byte)) : List (Fin 16) :=
  (List.finRange 16).filter fun r => s.holdsNow r && !(bytesIn (s.ring r).desc.prodAddr 4 w).isEmpty

/-! ## Index words (R6, R9, R10, R13) -/

/-- The consumer word of ring `r`, written by initiator `x` (R6, R45). -/
def consumerBytes (r x : Fin 16) (w : List (Nat × Byte)) (s : State) : State :=
  let bytes := bytesIn (s.ring r).desc.consAddr 4 w
  if !s.windows r ∨ bytes = [] then s
  else
    let res := assemble 4 s.lif.consShadow[r] bytes
    let s := s.onLif fun l => { l with consShadow := upd l.consShadow r fun _ => res.1 }
    match res.2 with
    | some v => consumerValue r x (BitVec.ofNat 32 v) s
    | none => s

/-- The producer word of a ring that does not hold, written by initiator `x` (R13). -/
def passProducer (r x : Fin 16) (w : List (Nat × Byte)) (s : State) : State :=
  let bytes := bytesIn (s.ring r).desc.prodAddr 4 w
  if !s.windows r ∨ bytes = [] then s
  else
    let res := assemble 4 s.lif.prodShadow[r] bytes
    let s := s.onLif fun l => { l with prodShadow := upd l.prodShadow r fun _ => res.1 }
    match res.2 with
    | some v => handProducer r x (BitVec.ofNat 32 v) false s
    | none => s

/-- A value in the slot of ring `r`, completed by initiator `x` (R6, R10). -/
def slotComplete (r x : Fin 16) (v : Word) (s : State) : State :=
  let st := (s.ring r).state
  let s := s.onSlot r fun sl => { sl with completed := some v, target := some v, targetInit := x }
  match (s.slot r).status with
  | .empty => s
  | .committing => handProducer r x v true s
  | .holding =>
    if st = .enabled then handProducer r x v true (s.onSlot r fun sl => { sl with status := .committing }) else s

/-- Held bytes of transaction `id` join the slot of ring `r` (R9). -/
def enrol (x : Fin 16) (id : Nat) (w : List (Nat × Byte)) (s : State) (r : Fin 16) : State :=
  let bytes := bytesIn (s.ring r).desc.prodAddr 4 w
  s.onSlot r fun sl =>
    { sl with
      status := if sl.status = .empty then .holding else sl.status
      withheld := sl.withheld ++ [id]
      lastInit := x
      pend := (assemble 4 sl.pend bytes).1 }

/-- The held producer words of a write: every slot is enrolled first, with the value its assembly completes; then the
completed values are handed on in ascending ring number (R9, R10). -/
def holdProducers (x : Fin 16) (id : Nat) (rings : List (Fin 16)) (w : List (Nat × Byte)) (s : State) : State :=
  let done := rings.filterMap fun r =>
    (assemble 4 (s.slot r).pend (bytesIn (s.ring r).desc.prodAddr 4 w)).2.map fun v => (r, BitVec.ofNat 32 v)
  done.foldl (fun s rv => slotComplete rv.1 x rv.2 s) (rings.foldl (enrol x id w) s)

/-! ## ULINK_WRITE (R1, R3, R4, R15) -/

/-- A refused write (R15): ERROR at once, and OWNED_AREA_WRITE with the first beat that writes a part-page byte. -/
def refuseWrite (x : Fin 16) (addr : Word) (beats : List Beat) (s : State) : State :=
  let first : Option (Nat × Byte) := (writtenBytes addr.toNat beats).find? fun ab => s.inPartPage ab.1
  let beat : Nat := match first with
    | some ab => ab.1 / 16 * 16
    | none => 0
  (s.respond x false []).raise .lif .ownedAreaWrite .initiator x.val beat beats.length 0

/-- The strobes of the held bytes are cleared (R9): `held` says which addresses are held. -/
def clearStrobes (held : Nat → Bool) (a : Nat) (beats : List Beat) : List Beat :=
  beats.zipIdx.map fun bk =>
    { bk.1 with
      strobes := BitVec.ofNat 16 (((List.range 16).filter fun j =>
        beatStrobe bk.1 j && !held (beatPlace (a + 16 * bk.2) + j)).foldl (fun m j => m + 2 ^ j) 0) }

/-- The forwarded part of a write (R1, R9): the whole write, or what lies outside the held words. A held write with
nothing outside has no early part (log 6). -/
def forwardWrite (x : Fin 16) (addr : Word) (beats : List Beat) (held : List (Nat × Nat)) (id : Nat) (s : State) :
    State :=
  if held = [] then
    s.onLif fun l => { l with
      forwardPath := l.forwardPath ++
        [{ initiator := x, addr := addr, isRead := false, burst := beats.length, beats := beats, direct := true,
           held := [] }] }
  else
    let early := clearStrobes (fun a => held.any fun w => decide (w.1 ≤ a) && decide (a < w.1 + w.2)) addr.toNat beats
    let s := s.onLif fun l =>
      { l with txnCount := id + 1, heldTxns := l.heldTxns ++ [{ id := id, initiator := x, err := false }] }
    if early.all fun b => b.strobes == 0 then s
    else
      s.onLif fun l => { l with
        forwardPath := l.forwardPath ++
          [{ initiator := x, addr := addr, isRead := false, burst := beats.length, beats := early, direct := false,
             held := [id] }] }

/-- The treatments of a write's ring windows, after the rewrite and the forwarding (R4; log 5): slot capture, consumer
words, producer words. -/
def ringTreatments (x : Fin 16) (w : List (Nat × Byte)) (holders : List (Fin 16)) (id : Nat) (s : State) : State :=
  let captured := (List.finRange 16).foldl (fun s r =>
    if s.windows r && (s.ring r).desc.dir == .uplink then captureWrite r x w s else s) s
  let consumed := (List.finRange 16).foldl (fun s r => consumerBytes r x w s) captured
  let passed := (List.finRange 16).foldl (fun s r => if holders.contains r then s else passProducer r x w s) consumed
  holdProducers x id holders w passed

/-- An accepted write (R1, R4). -/
def acceptWrite (x : Fin 16) (addr : Word) (beats : List Beat) (s : State) : State :=
  let w := writtenBytes addr.toNat beats
  let holders := s.holders w
  let id := s.lif.txnCount
  let held := holders.map fun r => ((s.ring r).desc.prodAddr, 4)
  let res := rewriteBeats x addr.toNat beats s
  captureHost x w (ringTreatments x w holders id (forwardWrite x addr res.2 held id res.1))

/-- A write of a U-link initiator, by what it meets (R1, R9, R15). -/
def ulinkWrite (x : Fin 16) (addr : Word) (beats : List Beat) (s : State) : State :=
  let w := writtenBytes addr.toNat beats
  if w.any fun ab => s.inPartPage ab.1 then refuseWrite x addr beats s
  else if (s.holders w).any fun r => Config.withheldDepth ≤ (s.slot r).withheld.length then s
  else acceptWrite x addr beats s

/-- The LIF can accept a U-link transaction now (R1, R22). -/
def State.acceptsNow (s : State) : Bool := !s.pins.inReset && s.lif.forwardPath.length < Config.forwardDepth

/-- ULINK_WRITE (R1, R3, R4, R6, R8, R9, R10, R13, R14, R15). A write that cannot be accepted now is turned away and is
offered again (log 4). -/
def execUlinkWrite (x : Fin 16) (addr : Word) (beats : List Beat) (s : State) : Host.Outcome State Fault Refusal :=
  if !burstShape addr beats.length then .refused .illFormed
  else .next (stepWhen s.acceptsNow (ulinkWrite x addr beats) s)

/-- ULINK_READ (R1, R5). -/
def execUlinkRead (x : Fin 16) (addr : Word) (burst : Nat) (s : State) : Host.Outcome State Fault Refusal :=
  if !burstShape addr burst then .refused .illFormed
  else .next (stepWhen s.acceptsNow (fun s => s.onLif fun l => { l with
    forwardPath := l.forwardPath ++
      [{ initiator := x, addr := addr, isRead := true, burst := burst, beats := [], direct := true, held := [] }] }) s)

/-! ## The D-link arbiter (R17, R18) -/

/-- The head entry of the injection queue is issuable (R17). -/
def State.issuable (s : State) : Bool :=
  match s.lif.injQueue with
  | [] => false
  | e :: _ => !e.ordered || s.lif.injInFlight.all fun f => f.isRead

/-- The forward path is granted (R18). -/
def grantForward (count : Nat) (s : State) : State :=
  s.onLif fun l => { l with
    forwardPath := l.forwardPath.drop 1, fwdInFlight := l.fwdInFlight ++ l.forwardPath.take 1, arbCount := count }

/-- The injection queue is granted (R18); a request that waits takes the place (R16). -/
def grantInjection (s : State) : State :=
  fillPlace (s.onLif fun l => { l with
    injQueue := l.injQueue.drop 1, injInFlight := l.injInFlight ++ l.injQueue.take 1, arbCount := 0 })

/-- The arbiter's decision, by the table of R18. -/
def arbitrate (s : State) : State :=
  let fwd := !s.lif.forwardPath.isEmpty
  let c := s.lif.arbCount
  match fwd, s.issuable with
  | false, false => s
  | true, false => grantForward c s
  | false, true => grantInjection s
  | true, true => if c < s.ccu.cfg.passShare then grantForward (c + 1) s else grantInjection s

/-- DLINK_GRANT (R2, R16, R17, R18). -/
def execDlinkGrant (s : State) : Host.Outcome State Fault Refusal := .next (stepWhen (!s.pins.inReset) arbitrate s)

/-! ## Memory's answers (R2, R17, R19, R20) -/

/-- The answer to forwarded transaction `t` (R2, R9, R11, R19). -/
def forwardAnswer (t : FwdTxn) (ok : Bool) (data : List (BitVec 128)) (s : State) : State :=
  if t.direct then s.respond t.initiator ok (if t.isRead then data else [])
  else t.held.foldl (fun s id => answerHeld ok id s) s

/-- Memory answers the `i`-th unanswered forwarded transaction (R2); a read's answer carries its data beats (log 40). -/
def forwardResponse (i : Nat) (ok : Bool) (data : List (BitVec 128)) (s : State) : State :=
  match s.lif.fwdInFlight[i]? with
  | none => s
  | some t =>
    if t.isRead ∧ data.length ≠ t.burst then s
    else forwardAnswer t ok data (s.onLif fun l => { l with fwdInFlight := dropAt i l.fwdInFlight })

/-- FORWARD_RESPONSE (R2, R9, R11, R19). -/
def execForwardResponse (i : Nat) (ok : Bool) (data : List (BitVec 128)) (s : State) :
    Host.Outcome State Fault Refusal :=
  .next (stepWhen (!s.pins.inReset) (forwardResponse i ok data) s)

/-- MEMORY_ERROR for an injected transaction answered ERROR, unless it carries the event-ring mark (R20). -/
def memoryError (ok : Bool) (e : InjEntry) (s : State) : State :=
  if ok ∨ e.eventMark then s else s.raise .lif .memoryError .block (blockCode e.block) e.addr.toNat 0 0

/-- A receipt of ring `r` is answered (R38; log 15), which may complete the commit (R40). -/
def receiptAnswered (r : Fin 16) (gen : Nat) (s : State) : State :=
  if (s.ring r).gen = gen then
    checkComplete r (s.onRing r fun g => { g with outstanding := g.outstanding - 1 })
  else s

/-- What the answer to a write gives its requesting block (R17, R38, R181, R189). -/
def writeAnswered (tag : InjTag) (s : State) : State :=
  match tag with
  | .receipt r gen => receiptAnswered r gen s
  | .commandStatus => (s.onRpw fun r => { r with done := r.done + 1 }).ask .rpw .doneIndices
  | .indices e dp => s.onRpw fun r => { r with pubEv := e, pubDg := dp }
  | .plain | .baseline _ _ _ | .initRead _ => s

/-- Memory answers the `i`-th unanswered injected transaction, where it is a write (R17, R20). -/
def injectedWriteAnswer (i : Nat) (ok : Bool) (s : State) : State :=
  match s.lif.injInFlight[i]? with
  | none => s
  | some e =>
    if e.isRead then s
    else writeAnswered e.tag (memoryError ok e (s.onLif fun l => { l with injInFlight := dropAt i l.injInFlight }))

/-- INJECTED_WRITE_ANSWER (R17, R20, R38, R40, R181, R189). -/
def execInjectedWriteAnswer (i : Nat) (ok : Bool) (s : State) : Host.Outcome State Fault Refusal :=
  .next (stepWhen (!s.pins.inReset) (injectedWriteAnswer i ok) s)

/-- What the data of a read gives its requesting block (R17, R27, R171). -/
def readAnswered (tag : InjTag) (data : BitVec 128) (s : State) : State :=
  match tag with
  | .baseline r gen consumer => baselineAnswer r gen consumer data s
  | .initRead w =>
    s.onCcu fun c => { c with initReads := c.initReads.set w (some (wordOfBeat (4 * w.val) data)) }
  | .plain | .receipt _ _ | .commandStatus | .indices _ _ => s

/-- Memory answers the `i`-th unanswered injected transaction, where it is a read; ERROR gives zero bytes (R17, R20). -/
def injectedReadAnswer (i : Nat) (ok : Bool) (data : BitVec 128) (s : State) : State :=
  match s.lif.injInFlight[i]? with
  | none => s
  | some e =>
    if e.isRead then
      readAnswered e.tag (if ok then data else 0)
        (memoryError ok e (s.onLif fun l => { l with injInFlight := dropAt i l.injInFlight }))
    else s

/-- INJECTED_READ_ANSWER (R17, R20, R27, R171). -/
def execInjectedReadAnswer (i : Nat) (ok : Bool) (data : BitVec 128) (s : State) : Host.Outcome State Fault Refusal :=
  .next (stepWhen (!s.pins.inReset) (injectedReadAnswer i ok data) s)

end Sys2Proof.Machine
end

