-- ==== Sys2Proof/Machine/PinSteps.lean ====
section
/-! DEFINITION. Pin reset, its release, and the ATTN_POL pin (R22, R165, R190). -/

namespace Sys2Proof.Machine

/-- RST_N is asserted (R22, R30, R59, R61, R88, R104, R129, R152, R156, R168, R170, R182, R189): every piece of state is at
its pin-reset value, and ATTN_N follows the level of the ATTN_POL pin (R190). -/
def pinReset (attnPol : Bool) (s : State) : State :=
  { State.reset with pending := s.pending, pins := { State.reset.pins with attnPolPin := attnPol } }

/-- PIN_RESET (R22, R176). -/
def execPinReset (attnPol : Bool) (s : State) : Host.Outcome State Fault Refusal := .next (pinReset attnPol s)

/-- RST_N is released: the straps are sampled (R165). -/
def releaseReset (caSel : BitVec 8) (s : State) : State :=
  s.onPins fun p => { p with inReset := false, caSel := caSel, attnPol := p.attnPolPin }

/-- RESET_RELEASE (R22, R152, R165). -/
def execResetRelease (caSel : BitVec 8) (s : State) : Host.Outcome State Fault Refusal :=
  .next (stepWhen s.pins.inReset (releaseReset caSel) s)

/-- ATTN_POL_CHANGE_IN_RESET: the pin changes level while RST_N is asserted (R190; log 33). -/
def execAttnPolChangeInReset (s : State) : Host.Outcome State Fault Refusal :=
  .next (stepWhen s.pins.inReset (fun s => s.onPins fun p => { p with attnPolPin := !p.attnPolPin }) s)

end Sys2Proof.Machine
end

