-- ==== Sys2Proof/Machine/ReportSteps.lean ====
section
/-! DEFINITION. The report writer taking events (R183 to R185), area initialisation (R171, R185) and the end of SUSPENDING
(R173). -/

namespace Sys2Proof.Machine

/-- EVENT_TAKE of block `b` (R183 to R185; log 36). -/
def eventTake (b : Block) (s : State) : State :=
  match s.oldestEvent b with
  | some q => takeEvent b q s
  | none => s

/-- EVENT_TAKE (R183 to R185). -/
def execEventTake (b : Block) (s : State) : Host.Outcome State Fault Refusal :=
  .next (stepWhen (s.eventDue b) (eventTake b) s)

/-! ## AREA_INITIALISATION -/

/-- The indices are set from the three words read (R171; log 25). -/
def setIndices (prod ev dg : Word) (r : Rpw) : Rpw :=
  { r with indicesSet := true, prod := prod, done := prod, evProd := ev, evCons := ev, dgProd := dg, dgCons := dg }

/-- The early events' records, in the order in which they are written (R185). The EVENTS_LOST record carries the site time at
initialisation (log 50). -/
def State.earlyRecords (s : State) : List (List Byte) :=
  (if s.rpw.earlyLoss = 0 then []
    else [lostBytes s.rpw.earlyLoss s.rpw.earlyFirst s.rpw.earlyLast s.site]) ++
    s.rpw.early.map fun qt => eventBytes qt.1 qt.2

/-- The records `bs` are asked for in order, the last one marked; then, where there is none, the status page (R171, R185). -/
def askEarly : List (List Byte) → State → State
  | [], s => s.ask .ccu .statusPage
  | [b], s => s.ask .rpw (.earlyRecord b true)
  | b :: bs, s => askEarly bs (s.ask .rpw (.earlyRecord b false))

/-- The three reads are answered (R171): indices, early events, status page. -/
def initialise (s : State) : State :=
  match s.ccu.initReads[0], s.ccu.initReads[1], s.ccu.initReads[2] with
  | some prod, some ev, some dg =>
    askEarly s.earlyRecords (s.onRpw fun r =>
      { setIndices prod ev dg r with early := [], earlyLoss := 0, earlyFirst := none, earlyLast := none })
  | _, _, _ => s

/-- The part is INITIALISING, its three reads are answered and its indices not set (R171). -/
def State.initDue (s : State) : Bool :=
  !s.pins.inReset && s.ccu.part == .initialising && !s.rpw.indicesSet && !s.blocked .ccu &&
    s.ccu.initReads.toList.all fun r => r.isSome

/-- AREA_INITIALISATION (R171, R185). -/
def execAreaInitialisation (s : State) : Host.Outcome State Fault Refusal := .next (stepWhen s.initDue initialise s)

/-! ## SUSPEND_DRAINED -/

/-- The three conditions of R173, every commit in progress at its end (R29, R99; log 17), and a CCU that waits for nothing (R16,
R183). -/
def State.drained (s : State) : Bool :=
  !s.pins.inReset && s.ccu.part == .suspending && s.lif.slots.toList.all (fun sl => sl.status == .empty) &&
    s.rmn.dispatch.isEmpty && !s.inProgress && s.rmn.rings.toList.all (fun g => g.commit.isNone) &&
    !s.blocked .ccu

/-- SUSPEND_DRAINED (R173, R174). -/
def execSuspendDrained (s : State) : Host.Outcome State Fault Refusal := .next (stepWhen s.drained enterSuspended s)

end Sys2Proof.Machine
end

