-- ==== Sys2Proof/Machine/RingSteps.lean ====
section
/-! DEFINITION. The steps of the ring monitor and of a dispatched frame (02, 05; R28, R36, R43, R96), and the deadline
expiry (R72). -/

namespace Sys2Proof.Machine

/-- RING_DISABLE_COMPLETE (R28; log 16). -/
def execRingDisableComplete (r : Fin 16) (s : State) : Host.Outcome State Fault Refusal :=
  .next (stepWhen (!s.pins.inReset && s.disableDone r && !s.blocked .rmn) (finishDisabling r) s)

/-- SLOT_COMMIT (R36 to R40). -/
def execSlotCommit (r : Fin 16) (s : State) : Host.Outcome State Fault Refusal :=
  .next (stepWhen (s.slotCommitDue r) (commitSlot r) s)

/-- DOWNLINK_SLOT_COMMIT (R41, R96 to R98). -/
def execDownlinkSlotCommit (r : Fin 16) (s : State) : Host.Outcome State Fault Refusal :=
  .next (stepWhen (s.downlinkCommitDue r) (commitDownlink r) s)

/-! ## DISPATCH_FRAME (R43) -/

/-- The release of the head frame (R43 step 3): its buffer, its entry, and the oldest paused commit. -/
def releaseHead (e : DispatchEntry) (s : State) : State :=
  let s := (freeBuffer e.buf s).onRmn fun m => { m with dispatch := m.dispatch.drop 1, handling := none }
  resumePaused s.rmn.paused s

/-- The last job step and the release (R43). -/
def finishFrame (e : DispatchEntry) (f : Frame) (d : Option DirResult) (s : State) : State :=
  releaseHead e (if s.ccu.cfg.coverageEn then coverageStep f d s else s)

/-- The reefer entries `js` of the frame of entry `e` (R106): the state, and where a request cannot be taken at once, the
handling that is left (log 12, log 53). A trigger on a record that owes a digest is counted and requests nothing (R123). -/
def reeferEntries (e : DispatchEntry) (f : Frame) (d : Option DirResult) (t : Nat) :
    List Nat → State → State × Option Handling
  | [], s => (s, none)
  | j :: js, s =>
    let res := reeferEntry e.ring f (d.bind fun d => d.homeBin) t j s
    let left (raised : Bool) (owed : Option (Fin 2048)) : Option Handling :=
      some { runTime := t, result := d, next := j + 1, owed := owed, raised := raised }
    if s.heldBehind res.1 .rfm then (res.1, left true res.2)
    else
      match res.2 with
      | none => reeferEntries e f d t js res.1
      | some i =>
        if (res.1.reefer i).pending then reeferEntries e f d t js (trigger i res.1)
        else if res.1.waits .rpw then (res.1, left false (some i))
        else
          let s := settle (trigger i res.1)
          if s.waits .rpw then (s, left false none) else reeferEntries e f d t js s

/-- The reefer job step from entry `next` on, and what follows it (R43, R106). -/
def reeferStep (e : DispatchEntry) (f : Frame) (d : Option DirResult) (t next : Nat) (s : State) : State :=
  let res := reeferEntries e f d t ((List.range (frameCount f)).drop next) s
  match res.2 with
  | none => finishFrame e f d res.1
  | some h => res.1.onRmn fun m => { m with handling := some h }

/-- The frame of entry `e` was on the dispatch queue at the last UNBIND_CRANE of its terminal, whose directory entry is `x`
(R83; log 52). -/
def DispatchEntry.unboundBehind (e : DispatchEntry) (x : Terminal) : Bool := e.named.isSome && e.named == x.former

/-- The handling of the head frame begins (R43): directory step, then the job steps its kind and the enables require. -/
def beginFrame (e : DispatchEntry) (s : State) : State :=
  let f := (s.buffer e.buf).bytes
  let t := s.now
  let res := dirStep e.ring f t s
  let d := res.2
  let left : Bool := d.any fun d => e.unboundBehind (res.1.entry d.index)
  let s := if frameKind f = 1 ∧ res.1.ccu.cfg.craneEn then craneStep e.ring f e.runTime t left d res.1 else res.1
  if frameKind f = 3 ∧ s.ccu.cfg.reeferEn then reeferStep e f d t 0 s else finishFrame e f d s

/-- The digest request still to be made for the frame in handling, then the entries that follow, unless that request waits in
its turn (R106). -/
def resumeFrame (e : DispatchEntry) (h : Handling) (s : State) : State :=
  let f := (s.buffer e.buf).bytes
  match h.owed with
  | none => reeferStep e f h.result h.runTime h.next (s.onRmn fun m => { m with handling := none })
  | some i =>
    let s := settle (trigger i s)
    if s.waits .rpw then s.onRmn fun m => { m with handling := some { h with owed := none, raised := false } }
    else reeferStep e f h.result h.runTime h.next (s.onRmn fun m => { m with handling := none })

/-- The head frame is handled (R43). -/
def handleFrame (s : State) : State :=
  match s.rmn.dispatch with
  | [] => s
  | e :: _ =>
    match s.rmn.handling with
    | none => beginFrame e s
    | some h => resumeFrame e h s

/-- The deadline of context `k` ended before now and its expiry has not been taken. -/
def State.overdue (s : State) (k : Fin 32) : Bool :=
  (s.crane k).st != .unbound &&
    match (s.crane k).countdown with
    | some e => decide (e < s.now)
    | none => false

/-- The head frame is a status frame of a context whose expiry must come before it: it reached the head after the end time
(R82). -/
def State.expiryFirst (s : State) : Bool :=
  match s.rmn.dispatch with
  | [] => false
  | e :: _ =>
    let f := (s.buffer e.buf).bytes
    frameKind f == 1 && s.ccu.cfg.craneEn &&
      match s.findTerm (frameTid f) with
      | some i =>
        match (s.entry i).ctx with
        | some k => (s.crane k).tid == frameTid f && (s.crane k).dirIndex == i && s.overdue k
        | none => false
      | none => false

/-- The head frame's handling can begin, or go on from the request it stopped at (R106). -/
def State.handlingDue (s : State) : Bool :=
  match s.rmn.handling with
  | none => true
  | some h => !s.waits .rpw && (!h.raised || s.eventRoom .rfm)

/-- The head frame can be handled now (R16, R42, R43, R82, R173, R183). -/
def State.frameDue (s : State) : Bool :=
  !s.pins.inReset && s.working && !s.rmn.dispatch.isEmpty && s.handlingDue && !s.expiryFirst && !s.blocked .rmn &&
    !s.blocked .tdr && !s.blocked .csv && !s.blocked .rfm && !s.blocked .cvm

/-- DISPATCH_FRAME (R43). -/
def execDispatchFrame (s : State) : Host.Outcome State Fault Refusal := .next (stepWhen s.frameDue handleFrame s)

/-! ## DEADLINE_EXPIRY (R71, R72) -/

/-- The deadline of context `k` has expired (R71). -/
def State.deadlineDue (s : State) (k : Fin 32) : Bool :=
  !s.pins.inReset && s.working && (s.crane k).st != .unbound && !s.blocked .csv && !s.blocked .cvm &&
    match (s.crane k).countdown with
    | some e => decide (e ≤ s.now)
    | none => false

/-- DEADLINE_EXPIRY (R72, R73). -/
def execDeadlineExpiry (k : Fin 32) (s : State) : Host.Outcome State Fault Refusal :=
  .next (stepWhen (s.deadlineDue k) (expire k) s)

end Sys2Proof.Machine
end

