-- ==== Sys2Proof/Machine/SweepSteps.lean ====
section
/-! DEFINITION. The steps of the sweep (08; R58, R114, R140, R157, R158, R164) and of the digest drain (R124). -/

namespace Sys2Proof.Machine

/-- The period countdown expires (R157): it is reloaded from now, and a PERIOD trigger is delivered. -/
def periodExpiry (s : State) : State :=
  sweepTrigger .period (s.onTbs fun t => { t with countdown := some (periodEnd t.latchedPeriod s) })

/-- SWEEP_PERIOD_EXPIRY (R157, R158). -/
def execSweepPeriodExpiry (s : State) : Host.Outcome State Fault Refusal :=
  .next (stepWhen s.periodDue periodExpiry s)

/-- SWEEP_IN_EDGE (R157, R158): ignored under any other select than PIN. That an edge is taken at once, though the TBS waits with
the report writer (R16, R183), is the model's choice (log 59). -/
def execSweepInEdge (s : State) : Host.Outcome State Fault Refusal :=
  .next (stepWhen (!s.pins.inReset && s.tbs.latchedSel == .pin) (sweepTrigger .pin) s)

/-- The item at the cursor is visited, `body` being what its owning rule does (R160). Where that raised an event or asked for a
digest that has not joined, the sweep waits and the cursor stays; else the visit is over, and the cursor moves (log 37). -/
def takeVisit (body : State → State) (s : State) : State :=
  let u := settle (markEvents (fun q => { q with ofVisit := true }) s.rpw.events.length (body s))
  if s.rpw.events.length < u.rpw.events.length ∨ u.waits .rpw ∧ !s.waits .rpw then
    u.onTbs fun t => { t with visiting := true }
  else advanceSweep u

/-- A visit step: the visit under way, its events taken and its writes joined, is over; else the next is taken (R160). -/
def visitStep (body : State → State) (s : State) : State :=
  if s.tbs.visiting then advanceSweep (s.onTbs fun t => { t with visiting := false }) else takeVisit body s

/-- DIRECTORY_AGING_VISIT (R58, R160). -/
def execDirectoryAgingVisit (s : State) : Host.Outcome State Fault Refusal :=
  .next (stepWhen (s.visitDue .directory .tdr) (visitStep fun s => ageTerm (Fin.ofNat 256 s.tbs.cursor) s) s)

/-- A digest that the reefer monitor may have to write can be requested at once (R16, R183; log 8, log 12). -/
def State.digestsFlow (s : State) : Bool := !s.waits .rpw && s.rmn.handling.isNone

/-- REEFER_VISIT (R114, R160, R161): passed over while REEFER_EN is 0. -/
def execReeferVisit (s : State) : Host.Outcome State Fault Refusal :=
  .next (stepWhen (s.visitDue .reefer .rfm && (s.tbs.visiting || s.digestsFlow))
    (visitStep fun s => if s.ccu.cfg.reeferEn then visitReefer (Fin.ofNat 2048 s.tbs.cursor) s else s) s)

/-- GRID_AGING_VISIT (R140, R160): passed over while COVERAGE_EN is 0. -/
def execGridAgingVisit (s : State) : Host.Outcome State Fault Refusal :=
  .next (stepWhen (s.visitDue .grid .cvm)
    (visitStep fun s => if s.ccu.cfg.coverageEn then ageBin (Fin.ofNat 64 s.tbs.cursor) s else s) s)

/-- The block that owns the content of refresh section `k`, and requests its writes (R164, R177; log 47). -/
def sectionOwner (k : Fin 5) : Block :=
  match k with
  | 0 => .tdr
  | 1 => .csv
  | 2 => .rfm
  | 3 => .cvm
  | 4 => .tbs

/-- The section at the cursor is asked for; its content is taken as its first entry joins, and the sweep waits with it (R164). -/
def askSection (s : State) : State :=
  let k := Fin.ofNat 5 s.tbs.cursor
  (s.onTbs fun t => { t with refreshing := true }).ask (sectionOwner k) (.refresh k)

/-- REFRESH_SECTION (R164). -/
def execRefreshSection (s : State) : Host.Outcome State Fault Refusal :=
  .next (stepWhen (s.visitDue .refresh (sectionOwner (Fin.ofNat 5 s.tbs.cursor)) && !s.tbs.visiting) askSection s)

/-- The drain can examine a record now (R124). -/
def State.drainDue (s : State) : Bool :=
  !s.pins.inReset && s.working && s.rfm.draining && s.digestsFlow && !s.blocked .rfm

/-- DIGEST_DRAIN_STEP (R124). -/
def execDigestDrainStep (s : State) : Host.Outcome State Fault Refusal := .next (stepWhen s.drainDue drainStep s)

end Sys2Proof.Machine
end

