-- ==== Sys2Proof/Machine/Dispatch.lean ====
section
/-! DEFINITION. The meaning of each command: one arm per row of the table. -/

namespace Sys2Proof.Machine

def exec (i : Instr) (s : State) : Host.Outcome State Fault Refusal :=
  match i with
  | .pinReset attnPol => Sys2Proof.Machine.execPinReset attnPol s
  | .resetRelease caSel => Sys2Proof.Machine.execResetRelease caSel s
  | .ulinkWrite x addr beats => Sys2Proof.Machine.execUlinkWrite x addr beats s
  | .ulinkRead x addr burst => Sys2Proof.Machine.execUlinkRead x addr burst s
  | .dlinkGrant => Sys2Proof.Machine.execDlinkGrant s
  | .forwardResponse n ok data => Sys2Proof.Machine.execForwardResponse n ok data s
  | .injectedWriteAnswer n ok => Sys2Proof.Machine.execInjectedWriteAnswer n ok s
  | .injectedReadAnswer n ok data => Sys2Proof.Machine.execInjectedReadAnswer n ok data s
  | .ringDisableComplete r => Sys2Proof.Machine.execRingDisableComplete r s
  | .slotCommit r => Sys2Proof.Machine.execSlotCommit r s
  | .downlinkSlotCommit r => Sys2Proof.Machine.execDownlinkSlotCommit r s
  | .dispatchFrame => Sys2Proof.Machine.execDispatchFrame s
  | .deadlineExpiry k => Sys2Proof.Machine.execDeadlineExpiry k s
  | .nop => Sys2Proof.Machine.execNop s
  | .unknownCommand => Sys2Proof.Machine.execUnknownCommand s
  | .setTime => Sys2Proof.Machine.execSetTime s
  | .adjustTime => Sys2Proof.Machine.execAdjustTime s
  | .sweepNow => Sys2Proof.Machine.execSweepNow s
  | .registerTerminal => Sys2Proof.Machine.execRegisterTerminal s
  | .deregisterTerminal => Sys2Proof.Machine.execDeregisterTerminal s
  | .bindCrane => Sys2Proof.Machine.execBindCrane s
  | .unbindCrane => Sys2Proof.Machine.execUnbindCrane s
  | .forceHold => Sys2Proof.Machine.execForceHold s
  | .releaseHold => Sys2Proof.Machine.execReleaseHold s
  | .addReefer => Sys2Proof.Machine.execAddReefer s
  | .clearDose => Sys2Proof.Machine.execClearDose s
  | .retireReefer => Sys2Proof.Machine.execRetireReefer s
  | .resetBin => Sys2Proof.Machine.execResetBin s
  | .snapshotCoverage => Sys2Proof.Machine.execSnapshotCoverage s
  | .snapshotRow => Sys2Proof.Machine.execSnapshotRow s
  | .sweepPeriodExpiry => Sys2Proof.Machine.execSweepPeriodExpiry s
  | .sweepInEdge => Sys2Proof.Machine.execSweepInEdge s
  | .directoryAgingVisit => Sys2Proof.Machine.execDirectoryAgingVisit s
  | .reeferVisit => Sys2Proof.Machine.execReeferVisit s
  | .gridAgingVisit => Sys2Proof.Machine.execGridAgingVisit s
  | .refreshSection => Sys2Proof.Machine.execRefreshSection s
  | .digestDrainStep => Sys2Proof.Machine.execDigestDrainStep s
  | .eventTake b => Sys2Proof.Machine.execEventTake b s
  | .areaInitialisation => Sys2Proof.Machine.execAreaInitialisation s
  | .suspendDrained => Sys2Proof.Machine.execSuspendDrained s
  | .attnPolChangeInReset => Sys2Proof.Machine.execAttnPolChangeInReset s

end Sys2Proof.Machine
end

