-- ==== Sys2Proof/Machine/Step.lean ====
section
/-! DEFINITION. The step: the command at the front of the queue is taken; on an empty queue one microsecond passes. -/

namespace Sys2Proof.Machine

/-- One microsecond passes (R152; log 2): the run clock rises by 1 unless RST_N is asserted. -/
def tick (s : State) : State :=
  if s.pins.inReset then s else s.onTbs fun t => { t with runClock := t.runClock + 1 }

/-- One step: the command at the front of the queue, or on an empty queue the passing of a microsecond (log 1, log 2). -/
def step (s : State) : Host.Outcome State Fault Refusal :=
  match s.pending with
  | [] => .next (tick s)
  | c :: rest => exec c { s with pending := rest }

/-- `s` with the command that a word of the table spells in front of its queue; no word spells one. -/
def State.withFetchWord (s : State) (nbits w : Nat) : State :=
  match decodeTableWord nbits w with
  | some c => { s with pending := c :: s.pending }
  | none => s

end Sys2Proof.Machine
end

