-- ==== Sys2Proof/Machine/Flags.lean ====
section
/-! DEFINITION. The part's one line to the host: ATTN_N (R190). It follows the state at once, so it is computed from
the state and not stored (log 33). -/

namespace Sys2Proof.Machine

/-- A ring whose published producer is `p` and whose consumer shadow is `c` is non-empty when their difference lies
in 1 to 1024 (R190). -/
def ringNonEmpty (p c : Word) : Bool := 1 ≤ (p - c).toNat && (p - c).toNat ≤ Config.outputRingSize

/-- ATTN_N is asserted (R190). -/
def State.attention (s : State) : Bool :=
  !s.pins.inReset && s.ccu.cfg.attnEn &&
    (ringNonEmpty s.rpw.pubEv s.rpw.evCons ||
      (s.ccu.cfg.attnDigest && ringNonEmpty s.rpw.pubDg s.rpw.dgCons))

/-- The level of the ATTN_N pin, true high (R190): the asserted level is high when ATTN_POL, as sampled, is 1. While
RST_N is asserted the line is at the deasserted level of the ATTN_POL pin as it stands. -/
def State.attnN (s : State) : Bool :=
  if s.pins.inReset then !s.pins.attnPolPin
  else if s.attention then s.pins.attnPol else !s.pins.attnPol

end Sys2Proof.Machine
end

