-- ==== Sys2Proof/Safety.lean ====
section
/-! DEFINITION. What every step of a run keeps: the shadow in its ranges, the queues in their depths, and the grid's law. -/

namespace Sys2Proof.Machine

/-- A profile lies in the ranges of R105. -/
structure Profile.InRange (p : Profile) : Prop where
  tolHi : p.tolHi ≤ 255
  tolLo : p.tolLo ≤ 255
  warnDose : p.warnDose ≤ 16777215
  breachDose : p.breachDose ≤ 16777215
  interval : 60 ≤ p.interval ∧ p.interval ≤ 7200
  missFactor : 2 ≤ p.missFactor ∧ p.missFactor ≤ 8
  holdCap : 60 ≤ p.holdCap ∧ p.holdCap ≤ 14400

/-- The configuration shadow lies in the ranges of R168 and R105. -/
structure Cfg.InRange (c : Cfg) : Prop where
  restartGen : c.restartGen ≤ 255
  kindMask : c.kindMask ≤ 31
  domain : c.domain ≤ 255
  version : c.version ≤ 255
  passShare : 1 ≤ c.passShare ∧ c.passShare ≤ 15
  sweepPeriod : 1 ≤ c.sweepPeriod ∧ c.sweepPeriod ≤ 3600
  range : c.rangeStart ≤ 2047 ∧ c.rangeEnd ≤ 2047
  learnAge : 1 ≤ c.learnAge ∧ c.learnAge ≤ 1440
  defaultProfile : c.defaultProfile ≤ 7
  digestPeriod : c.digestPeriod ≤ 65535
  retireAge : c.retireAge ≤ 720
  jitterLimit : 1 ≤ c.jitterLimit ∧ c.jitterLimit ≤ 16777215
  origin : c.origin ≤ 4294967295
  binWidth : 1000 ≤ c.binWidth ∧ c.binWidth ≤ 10000
  binCount : 1 ≤ c.binCount ∧ c.binCount ≤ 64
  cellCount : 1 ≤ c.cellCount ∧ c.cellCount ≤ 16
  kcfg : 1 ≤ c.kcfg ∧ c.kcfg ≤ 6
  minSamples : 1 ≤ c.minSamples ∧ c.minSamples ≤ 16
  goodDb : -64 ≤ c.goodDb ∧ c.goodDb ≤ 63
  weakDb : -64 ≤ c.weakDb ∧ c.weakDb ≤ c.goodDb
  switchHyst : c.switchHyst ≤ 255
  loadLimit : c.loadLimit ≤ 255
  ageLimit : 1 ≤ c.ageLimit ∧ c.ageLimit ≤ 1440
  penaltyMargin : -64 ≤ c.penaltyMargin ∧ c.penaltyMargin ≤ 63
  profiles : ∀ p : Fin 8, (c.profiles[p]).InRange

/-- The shadow's values in force lie in their ranges (R105, R168). -/
def State.ShadowInRange (s : State) : Prop := s.ccu.cfg.InRange

/-- The injection queue holds at most 16 entries, and a request waits only while it holds 16 (R16). -/
def State.QueueFits (s : State) : Prop :=
  s.lif.injQueue.length ≤ Config.injectionDepth ∧
    (s.lif.injWaiting = [] ∨ s.lif.injQueue.length = Config.injectionDepth)

/-- A grid cell's m lies in −1024 … +1008, and a cell with n = 0 is UNKNOWN with m = 0 (R129). -/
def Cell.Lawful (c : Cell) : Prop := -1024 ≤ c.m ∧ c.m ≤ 1008 ∧ (c.n = 0 → c.st = .unknown ∧ c.m = 0)

/-- Every cell of a bin is lawful, and its preferred cell, when present, is GOOD (R129). -/
def Bin.Lawful (b : Bin) : Prop :=
  (∀ i : Fin 16, (b.cells[i]).Lawful) ∧ ∀ i : Fin 16, b.pref = some i → (b.cells[i]).st = .good

/-- The law of the coverage grid (R129). -/
def State.GridLawful (s : State) : Prop := ∀ b : Fin 64, (s.bin b).Lawful

/-- A run is safe when the shadow, the injection queue and the grid keep their laws. -/
structure State.Safe (s : State) : Prop where
  shadow : s.ShadowInRange
  queue : s.QueueFits
  grid : s.GridLawful

end Sys2Proof.Machine
end

