-- ==== Sys2Proof/Certificates/Slice0/Obligations.lean ====
section
/-! DEFINITION. The statements for the provers. The names under `Sys2Proof.Claims` say what several statements share:
what a state must meet for a command to be taken, and the state a completed command leaves. -/

namespace Sys2Proof.Claims

open Sys2Proof.Machine

/-- RST_N is released, no request waits for the injection queue, and the queue has `n` places free. -/
structure Ready (n : Nat) (s : State) : Prop where
  released : s.pins.inReset = false
  quiet : s.lif.injWaiting = []
  room : s.lif.injQueue.length + n ≤ 16

/-- The executor takes the record at the done index, whose code is that of `k` (R179): it is IDLE, the part is RUNNING and
a record is pending; the events of earlier commands are taken (R180), and no frame's handling is under way. -/
structure Takes (k : CommandKind) (s : State) : Prop where
  ready : Ready 1 s
  idle : s.rpw.exec = .idle
  running : s.ccu.part = .running
  waiting : s.rpw.prod ≠ s.rpw.done
  code : commandOf (rdLe s.nextRecord 0 1) = k
  calm : s.rmn.handling = none
  taken : ∀ q ∈ s.rpw.events, q.ofCommand = false

/-- An event request (R183). -/
def event (b : Block) (k : EventKind) (sk : SubjKind) (subject : Nat) (d0 d1 d2 : Int) : EventReq :=
  { block := b, kind := k, subjKind := sk, subject := BitVec.ofNat 32 subject, d0 := BitVec.ofInt 32 d0,
    d1 := BitVec.ofInt 64 d1, d2 := BitVec.ofInt 64 d2, ofCommand := false }

/-- The same request, raised by the command in progress. -/
def byCommand (q : EventReq) : EventReq := { q with ofCommand := true }

/-- The same request, raised by the sweep visit under way. -/
def byVisit (q : EventReq) : EventReq := { q with ofVisit := true }

/-- `s` with the event requests `l` behind those that wait. -/
def raised (l : List EventReq) (s : State) : State := { s with rpw := { s.rpw with events := s.rpw.events ++ l } }

/-- The status write of the record in progress (R181 step 1): the status byte and the completion time, bytes 1 to 7. -/
def statusEntry (st : Status) (s : State) : InjEntry :=
  { block := .rpw, addr := BitVec.ofNat 32 (s.areaBase + (0x1000 + 64 * (s.rpw.done.toNat % 256))), isRead := false,
    beats := [packBeat 1 (leBytes 1 (statusCode st) ++ siteBytes s.site)], ordered := false, eventMark := false,
    tag := .commandStatus }

/-- A command that raises no event has given status `st`: its status write has joined the injection queue, and the
executor is WRITING_BACK. -/
def completed (st : Status) (s : State) : State :=
  { s with
    rpw := { s.rpw with exec := .writingBack, result := some st }
    lif := { s.lif with injQueue := s.lif.injQueue ++ [statusEntry st s] } }

/-- A command that raised `l` has given status `st`: its status write follows its events (R180). -/
def owing (st : Status) (l : List EventReq) (s : State) : State :=
  { s with
    rpw := { s.rpw with exec := .executing, result := some st, events := s.rpw.events ++ l.map byCommand } }

/-- A sweep visit that led to `s` raised `l`: it is under way until its events are taken, and the cursor stays (R160). -/
def visitRaised (l : List EventReq) (s : State) : State :=
  { s with tbs := { s.tbs with visiting := true }, rpw := { s.rpw with events := s.rpw.events ++ l.map byVisit } }

/-- `l` written to the forward path behind what waits there. -/
def forwarded (t : FwdTxn) (s : State) : State :=
  { s with lif := { s.lif with forwardPath := s.lif.forwardPath ++ [t] } }

/-- A transaction passed on whole: a write of `beats`. -/
def plainWrite (x : Fin 16) (addr : Word) (beats : List Beat) : FwdTxn :=
  { initiator := x, addr := addr, isRead := false, burst := beats.length, beats := beats, direct := true, held := [] }

/-- A write of `beats` at byte `off` of the control area that publishes nothing (R16, R177). -/
def areaEntry (b : Block) (off : Nat) (beats : List Beat) (ordered : Bool) (s : State) : InjEntry :=
  { block := b, addr := BitVec.ofNat 32 (s.areaBase + off), isRead := false, beats := beats, ordered := ordered,
    eventMark := false, tag := .plain }

/-- The part record of a change to the state of code `part` at site time `t` (R175): state, restart generation, time. -/
def partEntry (part gen : Nat) (t : Word64) (s : State) : InjEntry :=
  areaEntry .ccu 0x8000 (beatsOf (leBytes 1 part ++ leBytes 1 gen ++ siteBytes t)) true s

/-- The record of ring `r` (R177), as `g` stands. -/
def ringEntry (r : Fin 16) (g : Ring) (s : State) : InjEntry :=
  areaEntry .rmn (0x8100 + 16 * r.val) (beatsOf (ringRecordBytes g)) false s

/-- `s` with entry `e` behind the injection queue. -/
def injected (e : InjEntry) (s : State) : State := { s with lif := { s.lif with injQueue := s.lif.injQueue ++ [e] } }

/-- The output ring indices section of `s` (R189): E, Dp, done index, lost count; ordered. -/
def indicesEntry (mark : Bool) (s : State) : InjEntry :=
  { block := .rpw, addr := BitVec.ofNat 32 (s.areaBase + 0x8010), isRead := false,
    beats := beatsOf (leBytes 4 s.rpw.evProd.toNat ++ leBytes 4 s.rpw.dgProd.toNat ++ leBytes 4 s.rpw.done.toNat ++
      satBytes 4 s.rpw.lost),
    ordered := true, eventMark := mark, tag := .indices s.rpw.evProd s.rpw.dgProd }

/-- A U-link write that the LIF can take now: a transaction of R1, a forward path with a place, no request waiting. -/
structure Offered (addr : Word) (beats : List Beat) (s : State) : Prop where
  released : s.pins.inReset = false
  place : s.lif.forwardPath.length < 16
  quiet : s.lif.injWaiting = []
  aligned : addr.toNat % 16 = 0
  burst : 1 ≤ beats.length ∧ beats.length ≤ 16

/-- The four bytes of an index word at address `a`. -/
def wordAt (a : Nat) (v : Word) : List (Nat × Byte) := (wordBytes v).map fun pb => (a + pb.1, pb.2)

/-- The byte at `a` lies in a host page (R3, R165). -/
def InHostPage (s : State) (a : Nat) : Prop := s.areaBase ≤ a ∧ a < s.areaBase + 0x6000

/-- The byte at `a` lies in a part page (R3, R165). -/
def InPartPage (s : State) (a : Nat) : Prop :=
  (s.areaBase + 0x8000 ≤ a ∧ a < s.areaBase + 0x9000) ∨ (s.areaBase + 0x10000 ≤ a ∧ a < s.areaBase + 0x18000) ∨
    (s.areaBase + 0x18000 ≤ a ∧ a < s.areaBase + 0x20000) ∨ (s.areaBase + 0x20000 ≤ a ∧ a < s.areaBase + 0x24000)

/-- Beat `n` of a burst from `addr` writes a byte of a part page; where a beat beyond the last byte of the address space lies
is a free value (log 32). -/
def OwnedBeat (s : State) (addr : Word) (beats : List Beat) (n : Nat) : Prop :=
  ∃ b j, beats[n]? = some b ∧ j < 16 ∧ beatStrobe b j = true ∧ InPartPage s (beatPlace (addr.toNat + 16 * n) + j)

/-- No window of the control area holds a byte of `w`. -/
def OutsideArea (s : State) (w : List (Nat × Byte)) : Prop := ∀ ab ∈ w, ¬InHostPage s ab.1 ∧ ¬InPartPage s ab.1

/-- No byte of `w` lies in the `len` bytes from `lo`. -/
def Misses (lo len : Nat) (w : List (Nat × Byte)) : Prop := ∀ ab ∈ w, ¬(lo ≤ ab.1 ∧ ab.1 < lo + len)

/-- A ring's windows are active (R3): it is ENABLING, ENABLED or DISABLING, the part RUNNING or SUSPENDING. -/
def Active (s : State) (r : Fin 16) : Prop :=
  ((s.ring r).state = .enabling ∨ (s.ring r).state = .enabled ∨ (s.ring r).state = .disabling) ∧
    (s.ccu.part = .running ∨ s.ccu.part = .suspending)

/-- `w` touches no window of ring `r`: no slot region, no producer word, no consumer word, and no held write. -/
def ClearOf (s : State) (w : List (Nat × Byte)) (r : Fin 16) : Prop :=
  Active s r →
    Misses (s.ring r).desc.base ((s.ring r).desc.slotCount * (s.ring r).desc.slotSize) w ∧
      Misses (s.ring r).desc.prodAddr 4 w ∧ Misses (s.ring r).desc.consAddr 4 w

/-- `w` touches no held word of a slot that is not EMPTY. -/
def NothingHeld (s : State) (w : List (Nat × Byte)) (r : Fin 16) : Prop :=
  (s.slot r).status ≠ .empty → Misses (s.ring r).desc.prodAddr 4 w

/-- The slot region of ring `r`, where it is an active DOWNLINK ring, holds the address of no beat (R14). -/
def PassesBy (s : State) (addr : Word) (beats : List Beat) (r : Fin 16) : Prop :=
  Active s r → (s.ring r).desc.dir = .downlink → ∀ n < beats.length,
    ¬((s.ring r).desc.base ≤ beatPlace (addr.toNat + 16 * n) ∧
      beatPlace (addr.toNat + 16 * n) < (s.ring r).desc.base + (s.ring r).desc.slotCount * (s.ring r).desc.slotSize)

/-- No beat goes to the rewrite trackers (R14). -/
def NoRewrite (s : State) (addr : Word) (beats : List Beat) : Prop := ∀ r, PassesBy s addr beats r

/-- A write that meets no window of a ring and no held write. -/
structure OffTheRings (s : State) (addr : Word) (beats : List Beat) : Prop where
  passes : NoRewrite s addr beats
  windows : ∀ r, ClearOf s (writtenBytes addr.toNat beats) r
  held : ∀ r, NothingHeld s (writtenBytes addr.toNat beats) r

/-- The watermark state after an evaluation at occupancy `occ` (R44). -/
def aboveAfter (g : Ring) (occ : Nat) : Bool :=
  if g.above = false ∧ g.desc.high ≤ occ then true else if g.above = true ∧ occ ≤ g.desc.low then false else g.above

/-- The watermark event of an evaluation at occupancy `occ` (R44). -/
def markEvent (r : Fin 16) (g : Ring) (occ : Nat) : List EventReq :=
  if g.above = false ∧ g.desc.high ≤ occ then [event .rmn .ringHigh .ring r.val occ 0 0]
  else if g.above = true ∧ occ ≤ g.desc.low then [event .rmn .ringLow .ring r.val occ 0 0]
  else []

/-- `s` with ring `r` replaced. -/
def withRing (r : Fin 16) (g : Ring) (s : State) : State :=
  { s with rmn := { s.rmn with rings := s.rmn.rings.set r g } }

/-- `s` with held-write slot `r` replaced. -/
def withSlot (r : Fin 16) (sl : HeldSlot) (s : State) : State :=
  { s with lif := { s.lif with slots := s.lif.slots.set r sl } }

/-- `s` with crane context `k` replaced. -/
def withCrane (k : Fin 32) (c : Crane) (s : State) : State := { s with csv := s.csv.set k c }

/-- `s` with rewrite tracker `k` FREE. -/
def trackerFreed (k : Fin 8) (s : State) : State :=
  { s with rmn := { s.rmn with trackers := s.rmn.trackers.set k { s.tracker k with st := .free } } }

/-- `s` with ring `r`'s commit held at `h` (R96). -/
def withMidway (r : Fin 16) (h : Option Midway) (s : State) : State :=
  { s with rmn := { s.rmn with midway := s.rmn.midway.set r h } }

/-- The event requests of block `b` that wait, and `n` more, have each a place in the injection queue (log 53). -/
abbrev RoomForEvents (b : Block) (n : Nat) (s : State) : Prop :=
  s.lif.injQueue.length + (s.rpw.events.countP fun q => q.block == b) + n ≤ 16

/-- `s` with the initiator of a host-page write captured (R4, R6). -/
def caught (x : Fin 16) (s : State) : State := { s with ccu := { s.ccu with capturedFrom := some x } }

/-- A context whose pending commands are older than the command `p` takes it as the newest (R77): with four pending the oldest
is dropped and counted unanswered. -/
def commandFiled (p : PendingCmd) (c : Crane) : Crane :=
  if c.cmds.length < 4 then { c with cmds := c.cmds ++ [p] }
  else { c with cmds := c.cmds.drop 1 ++ [p], unanswered := min (c.unanswered + 1) 4294967295 }

/-- `s` with directory entry `i` replaced. -/
def withEntry (i : Fin 256) (e : Terminal) (s : State) : State :=
  { s with tdr := { s.tdr with entries := s.tdr.entries.set i e } }

/-- `s` with reefer record `i` replaced. -/
def withReefer (i : Fin 2048) (q : Reefer) (s : State) : State :=
  { s with rfm := { s.rfm with recs := s.rfm.recs.set i q } }

/-- The sweep of `s` begins (R160). -/
def sweepBegun (s : State) : Tbs :=
  { s.tbs with
    sweeping := true, restart := false, sweepStart := s.site, rangeStart := s.ccu.cfg.rangeStart,
    rangeEnd := s.ccu.cfg.rangeEnd, phase := .directory, cursor := 0, refreshing := false, visiting := false }

/-- The sweep is RUNNING in phase `p`, no visit under way, the part RUNNING and out of reset. -/
structure Sweeping (p : SweepPhase) (s : State) : Prop where
  released : s.pins.inReset = false
  quiet : s.lif.injWaiting = []
  running : s.ccu.part = .running
  sweeping : s.tbs.sweeping = true
  phase : s.tbs.phase = p
  between : s.tbs.refreshing = false ∧ s.tbs.visiting = false

/-- A visit of phase `p` is under way, the part out of reset. -/
structure UnderWay (p : SweepPhase) (s : State) : Prop where
  released : s.pins.inReset = false
  quiet : s.lif.injWaiting = []
  sweeping : s.tbs.sweeping = true
  phase : s.tbs.phase = p
  visiting : s.tbs.refreshing = false ∧ s.tbs.visiting = true

/-- The visit under way, taken by command `c`, waits for its events and then ends with the cursor at item `n` of phase `p`
(R160). -/
def VisitEnds (c : Instr) (p : SweepPhase) (n : Nat) (s : State) : Prop :=
  ((∀ q ∈ s.rpw.events, q.ofVisit = false) →
    exec c s = .next { s with tbs := { s.tbs with visiting := false, phase := p, cursor := n } }) ∧
  ((∃ q ∈ s.rpw.events, q.ofVisit = true) → exec c s = .next s)

/-- `s` with the sweep's phase and cursor moved. -/
def cursorAt (p : SweepPhase) (n : Nat) (s : State) : State := { s with tbs := { s.tbs with phase := p, cursor := n } }

/-- The frame of entry `e` at the head of the dispatch queue can be handled at once, and no commit is paused. -/
structure Dispatches (e : DispatchEntry) (rest : List DispatchEntry) (s : State) : Prop where
  released : s.pins.inReset = false
  quiet : s.lif.injWaiting = []
  working : s.working = true
  head : s.rmn.dispatch = e :: rest
  fresh : s.rmn.handling = none
  unpaused : s.rmn.paused = []

/-- The ring monitor of `s` after the release of the head frame `e` (R43). -/
def frameReleased (e : DispatchEntry) (rest : List DispatchEntry) (s : State) : Rmn :=
  { s.rmn with
    buffers := s.rmn.buffers.set e.buf { s.buffer e.buf with st := .free }, exhausted := false, dispatch := rest }

/-- The serving cell of frame `f`, where it is usable (R51). -/
def servingCell (c : Cfg) (f : Frame) : Option (Fin 16) :=
  if frameCell f ≠ 255 ∧ frameCell f < c.cellCount ∧ frameCell f < 16 then some (Fin.ofNat 16 (frameCell f)) else none

/-- The measured margin of frame `f` in 1/16 dB, or what was there (R51). -/
def servingMargin (old : Option Int) (f : Frame) : Option Int :=
  if frameMargin f = -128 then old else some (16 * frameMargin f)

/-- A beat of initiator `x` at offset `off` of slot `sl` of ENABLED DOWNLINK ring `r`, which the host may fill; it meets no
other window (R14, R90). -/
structure HeaderBeat (r x : Fin 16) (sl off : Nat) (addr : Word) (b : Beat) (s : State) : Prop where
  offered : Offered addr [b] s
  running : s.ccu.part = .running
  enabled : (s.ring r).state = .enabled
  downlink : (s.ring r).desc.dir = .downlink
  acts : (s.ring r).desc.stamp = true ∨ (s.ring r).desc.steer = true ∨ (s.ring r).desc.hold = true
  slot : sl < (s.ring r).desc.slotCount
  size : 32 ≤ (s.ring r).desc.slotSize
  place : addr.toNat = (s.ring r).desc.base + sl * (s.ring r).desc.slotSize + off
  free : (BitVec.ofNat 32 sl - (s.ring r).prod).toNat % (s.ring r).desc.slotCount <
    (s.ring r).desc.slotCount - ((s.ring r).prod - (s.ring r).cons).toNat
  outside : OutsideArea s (writtenBytes addr.toNat [b])
  passes : ∀ q, q ≠ r → PassesBy s addr [b] q ∧ ClearOf s (writtenBytes addr.toNat [b]) q
  held : ∀ q, NothingHeld s (writtenBytes addr.toNat [b]) q
  words : Misses (s.ring r).desc.prodAddr 4 (writtenBytes addr.toNat [b]) ∧
    Misses (s.ring r).desc.consAddr 4 (writtenBytes addr.toNat [b])

/-- Initiator `x` may fill the slots of ring `r` (R23). -/
def Produces (r x : Fin 16) (s : State) : Prop := (s.ring r).desc.prodInit = 16 ∨ (s.ring r).desc.prodInit = x.val

/-- A full header beat of the ring's producer (R90). -/
structure Rewrites (r x : Fin 16) (sl off : Nat) (addr : Word) (b : Beat) (s : State) : Prop extends
    HeaderBeat r x sl off addr b s where
  producer : Produces r x s
  full : b.strobes = 0xFFFF

/-- The tests of R37 on captured frame `f`, in their order: whether each fails, and the verdict and reason it then decides. -/
def frameTests (c : Cfg) (d : RingDesc) (f : Frame) : List (Bool × Nat × Nat) :=
  let kind := frameKind f
  let pairs := frameCount f
  let listed (top size : Nat) : Bool := 1 ≤ pairs && pairs ≤ top && 32 + size * pairs ≤ frameLen f
  [(frameMagic f != 0x5A, 2, 1),
   (c.version != 0 && frameVersion f != c.version, 2, 2),
   (frameLen f < 32 || d.slotSize - (if d.receipts then 16 else 0) < frameLen f, 2, 3),
   (d.check && headerSum f != 0xFFFF, 2, 4),
   (!(if kind = 1 then pairs == 0 else if kind = 3 then listed 12 16 else if kind = 4 then listed 8 2 else true), 2, 5),
   (c.domainCheck && frameDomain f != c.domain, 3, 0),
   (kind == 0 || kind == 2 || !c.kindMask.testBit (if kind < 5 then kind - 1 else 4), 4, 0)]

/-- The verdict and the reason of a captured frame (R37): those of the first test that fails, or ACCEPTED. -/
def verdictOf (c : Cfg) (d : RingDesc) (f : Frame) : Nat × Nat :=
  (((frameTests c d f).find? fun q => q.1).map fun q => q.2).getD (1, 0)

/-- The receipt of ring `g`'s slot at P (R38): verdict, reason, ring, index, site time and length. -/
def receiptEntry (r : Fin 16) (g : Ring) (verdict reason len : Nat) (s : State) : InjEntry :=
  { block := .rmn
    addr := BitVec.ofNat 32 (g.desc.base + (g.prod.toNat % g.desc.slotCount + 1) * g.desc.slotSize - 16)
    isRead := false
    beats := beatsOf ([0xA5] ++ leBytes 1 verdict ++ leBytes 1 reason ++ leBytes 1 r.val ++ leBytes 4 g.prod.toNat ++
      siteBytes s.site ++ leBytes 2 len)
    ordered := false
    eventMark := false
    tag := .receipt r g.gen }

/-- The digest of record `r` with its trigger count at index Dp (R125, R187). -/
def digestEntry (r : Reefer) (triggers : Nat) (s : State) (retired : Bool := false) : InjEntry :=
  areaEntry .rpw (0x18000 + 32 * (s.rpw.dgProd.toNat % 1024)) (beatsOf (digestBytes r triggers retired s.site)) false s

/-- `s` with Dp one higher (R187). -/
def dpRaised (s : State) : State := { s with rpw := { s.rpw with dgProd := s.rpw.dgProd + 1 } }

/-- `s` with the digest of record `r` and the section behind it written, Dp one higher (R187, R189). -/
def digestWritten (r : Reefer) (triggers : Nat) (s : State) (retired : Bool := false) : State :=
  injected (indicesEntry false (dpRaised s)) (injected (digestEntry r triggers s retired) (dpRaised s))

/-- The digest ring has a free slot (R187). -/
abbrev DigestFits (s : State) : Prop := (s.rpw.dgProd - s.rpw.dgCons).toNat < 1024

/-- The frame index of slot `sl` of ring `g` (R90). -/
def indexOf (g : Ring) (sl : Nat) : Word :=
  g.prod + BitVec.ofNat 32 ((BitVec.ofNat 32 sl - g.prod).toNat % g.desc.slotCount)

/-- The part of R24 that a descriptor fails, in the order of its table: whether each test fails, and its cause. -/
def descriptorTests (s : State) (r : Fin 16) : List (Bool × RejectCause) :=
  let d := (s.ring r).desc
  let others := ((List.finRange 16).filter fun q => q != r && ((s.ring q).state == .enabling ||
    (s.ring q).state == .enabled || (s.ring q).state == .disabling)).map fun q => (s.ring q).desc
  let last (d : RingDesc) : Nat := d.base + d.slotCount * d.slotSize
  let meets (a b c e : Nat) : Bool := max a c < min b e
  let area (a b : Nat) : Bool := meets a b s.areaBase (s.areaBase + 0x40000)
  let inside (a : Nat) (o : RingDesc) : Bool := meets a (a + 4) o.base (last o)
  [(!([256, 512, 1024, 2048].contains d.slotSize), .size),
   (!([8, 16, 32, 64, 128, 256, 512, 1024].contains d.slotCount), .count),
   (d.base % d.slotSize != 0 || d.prodAddr % 4 != 0 || d.consAddr % 4 != 0, .align),
   (decide (2 ^ 32 < last d) || decide (16 < d.prodInit), .range),
   (area d.base (last d) || area d.prodAddr (d.prodAddr + 4) || area d.consAddr (d.consAddr + 4), .area),
   (others.any fun o => meets d.base (last d) o.base (last o), .overlap),
   ((d :: others).any fun o => inside d.prodAddr o || inside d.consAddr o, .index)]

/-- The cause of rejection of ring `r` (R24): that of the first test that fails. -/
def causeOf (s : State) (r : Fin 16) : Option RejectCause :=
  ((descriptorTests s r).find? fun q => q.1).map fun q => q.2

/-- The number of cells below the cell count in state `st` (R136). -/
def cellsOf (c : Cfg) (b : Bin) (st : CellState) : Nat :=
  (List.finRange 16).countP fun i => decide (i.val < c.cellCount) && b.cells[i].st == st

/-- Cell `i` is a candidate (R137): GOOD below the cell count, and below LOAD_LIMIT where that is on and some GOOD cell is. -/
def Candidate (c : Cfg) (attach : Vector Nat 16) (b : Bin) (i : Fin 16) : Prop :=
  let good (j : Fin 16) : Prop := j.val < c.cellCount ∧ b.cells[j].st = .good
  good i ∧ (c.loadLimit = 0 ∨ attach[i] < c.loadLimit ∨ ∀ j, good j → c.loadLimit ≤ attach[j])

/-- The events of an evaluation of bin `n`, which led from `old` to `new`, with cause code `cause` (R136, R138, R151); `top`:
the largest m of the WEAK cells considered. -/
def evalEvents (c : Cfg) (n : Fin 64) (cause : Nat) (top : Int) (old new : Bin) : List EventReq :=
  (if old.hole = new.hole then []
    else if new.hole then [event .cvm .binHole .bin n.val (cellsOf c new .weak) top cause]
    else [event .cvm .binHoleCleared .bin n.val (cellsOf c new .good)
      (cellsOf c new .good + cellsOf c new .weak : Nat) cause]) ++
  if old.pref = new.pref then []
  else [event .cvm .preferredChanged .bin n.val (optFin old.pref) (optFin new.pref) cause]

/-- Bin `n`, `old` before, has been evaluated to `new`, with its events (R136 to R138). -/
structure Evaluated (c : Cfg) (attach : Vector Nat 16) (n : Fin 64) (cause : Nat) (old new : Bin)
    (events : List EventReq) : Prop where
  hole : new.hole = true ↔ cellsOf c new .good = 0 ∧ 0 < cellsOf c new .weak
  none : (∀ i, ¬Candidate c attach new i) → new.pref = .none
  best : ∀ i, Candidate c attach new i →
    (∀ j, Candidate c attach new j → new.cells[j].m < new.cells[i].m ∨ new.cells[j].m = new.cells[i].m ∧ i ≤ j) →
    (∀ p, old.pref = some p → Candidate c attach new p →
      new.pref = if new.cells[p].m + c.switchHyst ≤ new.cells[i].m then some i else some p) ∧
    ((∀ p, old.pref = some p → ¬Candidate c attach new p) → new.pref = some i)
  raised : ∃ top : Int, events = evalEvents c n cause top old new ∧
    (new.hole = true → (∃ i : Fin 16, i.val < c.cellCount ∧ new.cells[i].st = .weak ∧ new.cells[i].m = top) ∧
      ∀ i : Fin 16, i.val < c.cellCount → new.cells[i].st = .weak → new.cells[i].m ≤ top)

/-- A sample of margin `margin` dB has been folded into cell `i` of a bin at run time `now` (R133, R135). -/
structure Folded (c : Cfg) (now : Nat) (margin : Int) (i : Fin 16) (old new : Bin) : Prop where
  others : ∀ j : Fin 16, j ≠ i → new.cells[j] = old.cells[j]
  count : new.cells[i].n = min (old.cells[i].n + 1) 255
  last : new.cells[i].last = now
  first : old.cells[i].n = 0 → new.cells[i].m = 16 * max (-64) (min 63 margin)
  mean : 0 < old.cells[i].n →
    let d := 16 * max (-64) (min 63 margin) - old.cells[i].m
    let k := min c.kcfg (bitLength old.cells[i].n)
    new.cells[i].m = old.cells[i].m + d.sign * ((d.natAbs + 2 ^ (k - 1)) / 2 ^ k : Nat)
  state : new.cells[i].st = if new.cells[i].n < c.minSamples then .sparse
    else if 16 * (if old.cells[i].st = .good then c.weakDb else c.goodDb) ≤ new.cells[i].m then .good else .weak

/-- Every other block of `t` is as in `s`. -/
def SameBut (lif rmn tdr csv rfm cvm tbs ccu rpw : Bool) (s t : State) : Prop :=
  t.pending = s.pending ∧ t.pins = s.pins ∧ (lif = false → t.lif = s.lif) ∧ (rmn = false → t.rmn = s.rmn) ∧
    (tdr = false → t.tdr = s.tdr) ∧ (csv = false → t.csv = s.csv) ∧ (rfm = false → t.rfm = s.rfm) ∧
    (cvm = false → t.cvm = s.cvm) ∧ (tbs = false → t.tbs = s.tbs) ∧ (ccu = false → t.ccu = s.ccu) ∧
    (rpw = false → t.rpw = s.rpw)

/-- Ones'-complement sum of the eight 16-bit words of a beat onto `acc` (R37). -/
def beatSum (acc : Nat) (b : Beat) : Nat := (List.range 8).foldl (fun a j => ocAdd a (beatWord b j)) acc

end Sys2Proof.Claims

open Sys2Proof Sys2Proof.Machine Sys2Proof.Claims

/-! ## The step and the pins -/

/-- Model's choice of an order (log 1): a step takes the command at the front of the queue. -/
def Obligations.StepTakesTheFrontCommand : Prop :=
  ∀ (c : Instr) (rest : List Instr) (s : State), s.pending = c :: rest → step s = exec c { s with pending := rest }

/-- Model's choice (log 2): on an empty queue the run clock rises by 1 unless RST_N is asserted. -/
def Obligations.IdleStepLetsAMicrosecondPass : Prop :=
  ∀ s : State, s.pending = [] →
    step s = .next (if s.pins.inReset then s
      else { s with tbs := { s.tbs with runClock := s.tbs.runClock + 1 } })

/-- R22, R30, R59, R61, R104, R129, R152, R153, R168, R170, R182, R189: what PIN_RESET leaves of each block. -/
def Obligations.PinResetReturnsEveryBlock : Prop :=
  ∀ (p : Bool) (s : State), ∃ t, exec (.pinReset p) s = .next t ∧ t.pending = s.pending ∧
    t.pins.inReset = true ∧ t.pins.attnPolPin = p ∧
    (∀ r : Fin 16, (t.slot r).status = .empty ∧ (t.slot r).withheld = [] ∧ (t.slot r).pend = [] ∧
      t.lif.prodShadow[r] = [] ∧ t.lif.consShadow[r] = []) ∧
    t.lif.hostShadow = [] ∧ t.lif.forwardPath = [] ∧ t.lif.fwdInFlight = [] ∧ t.lif.heldTxns = [] ∧
    t.lif.injQueue = [] ∧ t.lif.injInFlight = [] ∧ t.lif.injWaiting = [] ∧ t.lif.arbCount = 0 ∧
    (∀ r : Fin 16, (t.ring r).state = .disabled ∧ (t.ring r).prod = 0 ∧ (t.ring r).cons = 0 ∧
      (t.ring r).slotMap = [] ∧ (t.ring r).above = false ∧ (t.ring r).resyncs = 0) ∧
    (∀ b : Fin 64, (t.buffer b).st = .free) ∧ t.rmn.exhausted = false ∧ t.rmn.dispatch = [] ∧ t.rmn.paused = [] ∧
    (∀ k : Fin 8, (t.tracker k).st = .free) ∧
    (∀ i : Fin 256, (t.entry i).st = .free) ∧ (∀ c : Fin 16, t.tdr.attach[c] = 0) ∧
    (∀ k : Fin 32, (t.crane k).st = .unbound ∧ (t.crane k).countdown = none) ∧
    (∀ i : Fin 2048, (t.reefer i).used = false) ∧ t.rfm.draining = false ∧ t.rfm.cursor = 0 ∧
    t.rfm.pendingCount = 0 ∧
    (∀ b : Fin 64, (t.bin b).hole = false ∧ (t.bin b).pref = none ∧
      ∀ i : Fin 16, (t.bin b).cells[i].st = .unknown ∧ (t.bin b).cells[i].n = 0 ∧ (t.bin b).cells[i].m = 0) ∧
    t.cvm.snapRunning = false ∧ t.cvm.gen = 0 ∧ t.cvm.folded = 0 ∧ t.cvm.discarded = 0 ∧
    t.tbs.runClock = 0 ∧ t.tbs.offset = 0 ∧ t.tbs.sweeping = false ∧ t.tbs.restart = false ∧
    t.ccu.part = .dormant ∧ t.ccu.cfg.run = false ∧ t.ccu.cfg.passShare = 4 ∧ t.ccu.cfg.binWidth = 5000 ∧
    t.rpw.exec = .idle ∧ t.rpw.done = 0 ∧ t.rpw.prod = 0 ∧ t.rpw.evProd = 0 ∧ t.rpw.dgProd = 0 ∧ t.rpw.lost = 0 ∧
    t.rpw.early = [] ∧ t.rpw.earlyLoss = 0 ∧ t.rpw.events = []

/-- R165, R190: RESET_RELEASE samples the straps, ATTN_POL moves only in reset; neither does anything out of reset. -/
def Obligations.StrapsAreSampledAtRelease : Prop :=
  ∀ (ca : BitVec 8) (s : State), s.lif.injWaiting = [] →
    exec (.resetRelease ca) s = .next (if s.pins.inReset then
      { s with pins := { s.pins with inReset := false, caSel := ca, attnPol := s.pins.attnPolPin } } else s) ∧
    exec .attnPolChangeInReset s = .next (if s.pins.inReset then
      { s with pins := { s.pins with attnPolPin := !s.pins.attnPolPin } } else s)

/-- While RST_N is asserted no command but those of the pins changes the part (R22). -/
def Obligations.InResetOnlyThePinsAct : Prop :=
  ∀ (c : Instr) (s t : State), s.pins.inReset = true → (∀ p, c ≠ .pinReset p) → (∀ ca, c ≠ .resetRelease ca) →
    c ≠ .attnPolChangeInReset → exec c s = .next t → t = s

/-! ## The links -/

/-- R15: a write whose first part-page byte is written by beat `n` is refused whole, answered ERROR at once, and reported
with the address of that beat and the burst. -/
def Obligations.PartPageWriteIsRefused : Prop :=
  ∀ (x : Fin 16) (addr : Word) (beats : List Beat) (s : State) (n : Nat), Offered addr beats s →
    OwnedBeat s addr beats n → (∀ m < n, ¬OwnedBeat s addr beats m) →
    exec (.ulinkWrite x addr beats) s = .next
      { s with
        lif := { s.lif with uOut := s.lif.uOut ++ [{ initiator := x, ok := false, data := [] }] }
        rpw := { s.rpw with
          events := s.rpw.events ++
            [event .lif .ownedAreaWrite .initiator x.val (beatPlace (addr.toNat + 16 * n)) beats.length 0] } }

/-- R1, R2: a write that touches no window joins the forward path whole and changes nothing else. -/
def Obligations.PlainWriteIsForwardedWhole : Prop :=
  ∀ (x : Fin 16) (addr : Word) (beats : List Beat) (s : State), Offered addr beats s →
    OutsideArea s (writtenBytes addr.toNat beats) → NoRewrite s addr beats →
    (∀ r, ClearOf s (writtenBytes addr.toNat beats) r) → (∀ r, NothingHeld s (writtenBytes addr.toNat beats) r) →
    exec (.ulinkWrite x addr beats) s = .next (forwarded (plainWrite x addr beats) s)

/-- R166, R167: a write of the PASS_SHARE byte alone takes the nearest value of 1–15; a write of the bin count byte alone
while COVERAGE_EN is 1 changes nothing and raises CONFIG_LOCKED unless it writes the applied value. R176: a write of a new
restart generation restarts the jobs while the part is SUSPENDED, and is locked in any other state. The state and time in the
part record are those of the last change (the model's choice, log 24). Where a restart clears entries, contexts, records and
bins, the fields that no rule names take the model's reset values (log 30). R148: COVERAGE_EN written on has every bin
evaluated, in ascending order, with cause ENABLE, and 255 in a detail stands for no preferred cell, as in the bin record (the
model's choice, log 28). R166: the code byte of a command record, and the bytes of a tag once the
last of them is written, reach the command ring shadow; that the record's code in the shadow says where its tag lies is the
model's choice (log 18). R24 to R28, R167, R177: a ring's enable written off while it is claiming takes it to DISABLING; a
locked field keeps its value and raises CONFIG_LOCKED; in DISABLED a field is applied, and enable written on rejects a
descriptor with the first cause of R24 (its readings: log 44), or, in a part that is not RUNNING, leaves the ring waiting. -/
def Obligations.ConfigurationByteIsClampedAndLocked : Prop :=
  (∀ (x : Fin 16) (addr : Word) (beats : List Beat) (s : State) (v : Byte), Offered addr beats s →
    s.lif.hostShadow = [] → OffTheRings s addr beats →
    let u := forwarded (plainWrite x addr beats) s
    (writtenBytes addr.toNat beats = [(s.areaBase + 0x009, v)] →
      exec (.ulinkWrite x addr beats) s = .next { u with
        ccu := { s.ccu with
          cfg := { s.ccu.cfg with passShare := max 1 (min 15 v.toNat) }, capturedFrom := some x } }) ∧
    (writtenBytes addr.toNat beats = [(s.areaBase + 0x046, v)] → s.ccu.cfg.coverageEn = true →
      exec (.ulinkWrite x addr beats) s = .next
        (raised (if max 1 (min 64 v.toNat) = s.ccu.cfg.binCount then []
          else [event .ccu .configLocked .field 0x046 (max 1 (min 64 v.toNat) : Nat) s.ccu.cfg.binCount 2])
          (caught x u))) ∧
    (writtenBytes addr.toNat beats = [(s.areaBase + 0x001, v)] → v.toNat ≠ s.ccu.cfg.restartGen →
      (s.ccu.part ≠ .suspended → exec (.ulinkWrite x addr beats) s = .next
        (raised [event .ccu .configLocked .field 0x001 v.toNat s.ccu.cfg.restartGen 4] (caught x u))) ∧
      (s.ccu.part = .suspended → Ready 1 s →
        ∃ t, exec (.ulinkWrite x addr beats) s = .next t ∧ SameBut true true true true true true false true false s t ∧
          t.ccu = { s.ccu with cfg := { s.ccu.cfg with restartGen := v.toNat }, capturedFrom := some x } ∧
          t.tdr = .reset ∧ t.csv = Vector.replicate 32 .reset ∧ t.rfm = .reset ∧
          t.cvm = { Cvm.reset with gen := s.cvm.gen } ∧
          (∀ r, t.ring r = { s.ring r with prod := 0, cons := 0, above := false, slotMap := [], resyncs := 0 }) ∧
          (∀ b, (t.buffer b).st = .free) ∧ t.rmn.exhausted = false ∧ t.rmn.dispatch = [] ∧
          (∀ k, (t.tracker k).st = .free) ∧ t.lif.forwardPath = u.lif.forwardPath ∧
          (∀ r : Fin 16, t.lif.prodShadow[r] = [] ∧ t.lif.consShadow[r] = []) ∧
          t.lif.injQueue = s.lif.injQueue ++ [partEntry 4 v.toNat s.ccu.lastChange s])) ∧
    (writtenBytes addr.toNat beats = [(s.areaBase + 0x004, v)] → v ≠ 0 → s.ccu.cfg.coverageEn = false →
      ∃ (t : State) (events : Fin 64 → List EventReq), exec (.ulinkWrite x addr beats) s = .next t ∧
        SameBut true false false false false true false true true s t ∧ t.lif = u.lif ∧
        t.ccu = { s.ccu with cfg := { s.ccu.cfg with coverageEn := true }, capturedFrom := some x } ∧
        t.cvm = { s.cvm with bins := t.cvm.bins } ∧
        (∀ b, (t.bin b).cells = (s.bin b).cells ∧
          Evaluated s.ccu.cfg s.tdr.attach b 5 (s.bin b) (t.bin b) (events b)) ∧
        t.rpw = { s.rpw with events := s.rpw.events ++ (List.finRange 64).flatMap events }) ∧
    (∀ n : Fin 256, writtenBytes addr.toNat beats = [(s.areaBase + (0x1000 + 64 * n.val), v)] →
      exec (.ulinkWrite x addr beats) s = .next { caught x u with ccu := { (caught x u).ccu with
        commandRing := s.ccu.commandRing.set n (s.ccu.commandRing[n].set 0 v) } }) ∧
    (∀ r : Fin 16, Ready 1 s → writtenBytes addr.toNat beats = [(s.areaBase + (0x200 + 32 * r.val), v)] → v = 0 →
      (s.ring r).desc.enable = true → (s.ring r).state = .enabling ∨ (s.ring r).state = .enabled →
      let g : Ring := { s.ring r with desc := { (s.ring r).desc with enable := false }, state := .disabling }
      exec (.ulinkWrite x addr beats) s = .next (withRing r g (injected (ringEntry r g s) (caught x u)))) ∧
    (∀ r : Fin 16, writtenBytes addr.toNat beats = [(s.areaBase + (0x203 + 32 * r.val), v)] →
      (s.ring r).desc.receipts ≠ (v != 0) →
      ((s.ring r).state = .enabling ∨ (s.ring r).state = .enabled ∨ (s.ring r).state = .disabling →
        exec (.ulinkWrite x addr beats) s = .next
          (raised [event .ccu .configLocked .field (0x203 + 32 * r.val) (if v = 0 then 0 else 1)
            (if v = 0 then 1 else 0) 1] (caught x u))) ∧
      ((s.ring r).state = .disabled → (s.ring r).desc.enable = false →
        exec (.ulinkWrite x addr beats) s = .next
          (withRing r { s.ring r with desc := { (s.ring r).desc with receipts := v != 0 } } (caught x u)))) ∧
    (∀ r : Fin 16, Ready 1 s → writtenBytes addr.toNat beats = [(s.areaBase + (0x200 + 32 * r.val), v)] → v ≠ 0 →
      (s.ring r).desc.enable = false → (s.ring r).state = .disabled → s.lif.prodShadow[r] = [] → s.lif.consShadow[r] = [] →
      let g : Ring := { s.ring r with desc := { (s.ring r).desc with enable := true } }
      (∀ why, causeOf s r = some why →
        let g' : Ring := { g with state := .rejected, cause := some why }
        exec (.ulinkWrite x addr beats) s = .next (withRing r g' (injected (ringEntry r g' s) (caught x u)))) ∧
      (causeOf s r = none → s.ccu.part ≠ .running →
        exec (.ulinkWrite x addr beats) s = .next (withRing r g (caught x u))))) ∧
  (∀ (x : Fin 16) (addr : Word) (beats : List Beat) (s : State) (n : Fin 256) (tag : Word) (k : Nat), Offered addr beats s →
    OffTheRings s addr beats → k < 4 → commandOf (rdLe s.ccu.commandRing[n] 0 1) = .clearDose →
    let at' := 0x1008 + 64 * n.val
    let u := caught x (forwarded (plainWrite x addr beats) s)
    let kept (h : Assembly) (q : Record) : State :=
      { u with lif := { u.lif with hostShadow := h }, ccu := { u.ccu with commandRing := s.ccu.commandRing.set n q } }
    let q := s.ccu.commandRing[n]
    let byte (j : Nat) : Byte := BitVec.ofNat 8 (tag.toNat / 256 ^ j)
    (writtenBytes addr.toNat beats = (wordAt (s.areaBase + at') tag).drop k → s.lif.hostShadow = (wordAt at' tag).take k →
      exec (.ulinkWrite x addr beats) s =
        .next (kept [] ((((q.set 8 (byte 0)).set 9 (byte 1)).set 10 (byte 2)).set 11 (byte 3)))) ∧
    (0 < k → writtenBytes addr.toNat beats = (wordAt (s.areaBase + at') tag).take k → s.lif.hostShadow = [] →
      exec (.ulinkWrite x addr beats) s = .next (kept ((wordAt at' tag).take k) q)))

/-- R170, R171, R175: RUN written on in DORMANT takes the part to INITIALISING: STATE_CHANGED, the part record and the
three index reads. R173: RUN written off in RUNNING, with no snapshot and no held write to release, takes it to SUSPENDING.
R26, R27, R85, R172: RUN written on in SUSPENDED, with no drain start kept and no restart flag, takes it to RUNNING: every
bound crane is supervised afresh, and a ring with a valid descriptor, the only one that asks for admission, enters ENABLING
with its two baseline reads. That the part record comes before the index reads and before the ring's requests (log 49), and the
ring's record before its reads (log 54), is the model's choice. -/
def Obligations.RunOnStartsInitialisation : Prop :=
  ∀ (x : Fin 16) (addr : Word) (beats : List Beat) (s : State) (v : Byte), Offered addr beats s → s.lif.hostShadow = [] →
    writtenBytes addr.toNat beats = [(s.areaBase, v)] →
    let at' (off : Nat) : Word := BitVec.ofNat 32 (s.areaBase + off)
    let beatOf (a : Nat) : Word := BitVec.ofNat 32 (a / 16 * 16)
    let shape (l : List InjEntry) := l.map fun e => (e.addr, e.isRead, e.ordered)
    (Ready 4 s → v ≠ 0 → s.ccu.part = .dormant → s.ccu.cfg.run = false →
      ∃ t, exec (.ulinkWrite x addr beats) s = .next t ∧
        SameBut true false false false false false false true true s t ∧
        t.ccu = { s.ccu with
          cfg := { s.ccu.cfg with run := true }, part := .initialising, lastChange := s.site, capturedFrom := some x } ∧
        t.rpw = { s.rpw with
          events := s.rpw.events ++ [event .ccu .stateChanged .part 1 0 s.ccu.cfg.restartGen 1] } ∧
        t.lif.forwardPath = s.lif.forwardPath ++ [plainWrite x addr beats] ∧
        shape t.lif.injQueue = shape s.lif.injQueue ++
          [(at' 0x8000, false, true), (at' 0x5000, true, false), (at' 0x5000, true, false), (at' 0x5000, true, false)]) ∧
    (Ready 1 s → v = 0 → s.ccu.part = .running → s.ccu.cfg.run = true → OffTheRings s addr beats →
      s.cvm.snapRunning = false →
      (∀ r, (s.slot r).status = .holding → (s.ring r).commit ≠ none ∧ (s.ring r).state ≠ .enabling) →
      exec (.ulinkWrite x addr beats) s = .next
        (raised [event .ccu .stateChanged .part 3 2 s.ccu.cfg.restartGen 2]
          (injected (partEntry 3 s.ccu.cfg.restartGen s.site s) { forwarded (plainWrite x addr beats) s with
            ccu := { s.ccu with
              cfg := { s.ccu.cfg with run := false }, part := .suspending, lastChange := s.site,
              capturedFrom := some x } }))) ∧
    (Ready 4 s → v ≠ 0 → s.ccu.part = .suspended → s.ccu.cfg.run = false → s.tbs.restart = false →
      s.rfm.startKept = false → ∀ r : Fin 16,
      ((s.ring r).state = .enabled ∨ (s.ring r).desc.enable = true ∧
        ((s.ring r).state = .disabled ∨ (s.ring r).state = .rejected)) → s.rejection r = none →
      (∀ q, q ≠ r → (s.ring q).state = .disabled ∧ (s.ring q).desc.enable = false) →
      ∃ t, exec (.ulinkWrite x addr beats) s = .next t ∧
        SameBut true true false true false false false true true s t ∧
        t.ccu = { s.ccu with
          cfg := { s.ccu.cfg with run := true }, part := .running, lastChange := s.site, capturedFrom := some x } ∧
        t.rpw = { s.rpw with
          events := s.rpw.events ++ [event .ccu .stateChanged .part 2 4 s.ccu.cfg.restartGen 1] } ∧
        (∀ k, (s.crane k).st = .unbound → t.crane k = s.crane k) ∧
        (∀ k, (s.crane k).st ≠ .unbound →
          (t.crane k).countdown = some (s.tbs.runClock + (s.crane k).deadline) ∧ (t.crane k).lastSeq = none ∧
            (t.crane k).good = 0 ∧ (t.crane k).cmds = (s.crane k).cmds ∧
            ((s.crane k).st = .hold → (t.crane k).st = .hold ∧ (t.crane k).ready = false) ∧
            ((s.crane k).st ≠ .hold → (t.crane k).st = .watch)) ∧
        t.ring r = { s.ring r with
          state := .enabling, gen := (s.ring r).gen + 1, commit := none, outstanding := 0, keptC := none, baseP := none,
          baseC := none, slotMap := [], desc := clampMarks (s.ring r).desc } ∧
        (∀ q, q ≠ r → t.ring q = s.ring q) ∧ (∀ b sl j, (t.buffer b).st ≠ .filling r sl j) ∧
        t.lif.prodShadow[r] = [] ∧ t.lif.consShadow[r] = [] ∧
        t.lif.forwardPath = s.lif.forwardPath ++ [plainWrite x addr beats] ∧
        shape t.lif.injQueue = shape s.lif.injQueue ++
          [(at' 0x8000, false, true), (at' (0x8100 + 16 * r.val), false, false),
            (beatOf (s.ring r).desc.prodAddr, true, false), (beatOf (s.ring r).desc.consAddr, true, false)])

/-- R8, R9, R10, R34: a whole write of the producer word of an ENABLED uplink ring with receipts, its slot EMPTY and no commit
in progress, is held; the value P is released at once; another up to the slot count beyond P and C begins a commit. R12, R35:
a value beyond that resyncs the ring and releases the write. R6: so with the last bytes of the word, from byte `k` on, where
the slot holds the bytes before them of the transactions `early`, which the release answers too. That a write held whole puts
nothing on the forward path is the model's choice (log 6), and so are the numbers of the held transactions (log 35) and the
initiator of the write that the resync releases without commit (log 46). -/
def Obligations.WholeProducerWriteIsHeldAndCommits : Prop :=
  ∀ (r x y : Fin 16) (addr : Word) (beats : List Beat) (s : State) (v : Word) (k : Nat) (early : List Nat),
    Offered addr beats s → k < 4 → early.length < 16 → (k = 0 → early = []) →
    writtenBytes addr.toNat beats = (wordAt (s.ring r).desc.prodAddr v).drop k → s.ccu.part = .running →
    (s.ring r).state = .enabled → (s.ring r).desc.dir = .uplink → (s.ring r).desc.receipts = true →
    (s.ring r).commit = none →
    s.slot r = (if k = 0 then .empty else { HeldSlot.empty with
      status := .holding, withheld := early, pend := (wordBytes v).take k, lastInit := y }) →
    OutsideArea s (writtenBytes addr.toNat beats) → NoRewrite s addr beats →
    (∀ q, q ≠ r → ClearOf s (writtenBytes addr.toNat beats) q ∧ NothingHeld s (writtenBytes addr.toNat beats) q) →
    Misses (s.ring r).desc.base ((s.ring r).desc.slotCount * (s.ring r).desc.slotSize)
      (writtenBytes addr.toNat beats) → Misses (s.ring r).desc.consAddr 4 (writtenBytes addr.toNat beats) →
    let g := s.ring r
    let near (w : Word) : Prop := (v - w).toNat ≤ g.desc.slotCount
    let held : State := { s with lif := { s.lif with
      txnCount := s.lif.txnCount + 1
      heldTxns := s.lif.heldTxns ++ [{ id := s.lif.txnCount, initiator := x, err := false }] } }
    let released : FwdTxn :=
      { initiator := x, addr := BitVec.ofNat 32 (g.desc.prodAddr / 16 * 16), isRead := false, burst := 1,
        beats := [beatAt (g.desc.prodAddr % 16) (wordBytes v)], direct := false, held := early ++ [s.lif.txnCount] }
    (v = g.prod →
      exec (.ulinkWrite x addr beats) s = .next
        (withRing r { g with valueFrom := some x } (withSlot r .empty (forwarded released held)))) ∧
    (v ≠ g.prod → near g.prod → near g.cons →
      exec (.ulinkWrite x addr beats) s = .next
        (withRing r { g with commit := some { target := v, byRequest := true }, valueFrom := some x }
          (withSlot r
            { status := .committing, withheld := early ++ [s.lif.txnCount], joined := [], pend := [], completed := some v,
              target := some v, targetInit := x, lastInit := x } held))) ∧
    (v ≠ g.prod → ¬(near g.prod ∧ near g.cons) → s.lif.injQueue.length < 16 →
      let c := if g.desc.slotCount < (v - g.cons).toNat then v else g.cons
      ∃ t, exec (.ulinkWrite x addr beats) s = .next t ∧
        SameBut true true false false false false false false true s t ∧
        t.ring r = { g with
          prod := v, cons := c, above := decide (g.desc.high ≤ (v - c).toNat),
          resyncs := min (g.resyncs + 1) 4294967295, slotMap := [], valueFrom := some x } ∧
        (∀ q, q ≠ r → t.ring q = s.ring q) ∧ (∀ b sl j, (t.buffer b).st ≠ .filling r sl j) ∧
        t.rmn.dispatch = s.rmn.dispatch ∧ t.slot r = .empty ∧ (∀ q, q ≠ r → t.slot q = s.slot q) ∧
        t.lif.heldTxns = held.lif.heldTxns ∧
        t.lif.forwardPath = s.lif.forwardPath ++ [released] ∧
        t.rpw = { s.rpw with
          events := s.rpw.events ++ [event .rmn .ringResync .ring r.val g.prod.toNat v.toNat 0] } ∧
        t.lif.injQueue = s.lif.injQueue ++ [ringEntry r (t.ring r) s])

/-- R44, R45: a whole write of the consumer word of an ENABLED or DISABLING ring is forwarded; a valid value becomes C and the
watermarks are evaluated, an invalid one raises INDEX_INVALID. R6: so with the last bytes of a word, from byte `k` on, where the
bytes before them are pending; the first bytes alone stay pending. R166, R178, R186, R188: so with the words of the index page
from RUNNING on: a command producer value, an event or a digest consumer value is tested and taken, or reported; a digest
consumer that advances starts the drain, or, SUSPENDED, leaves its start for later (R124). -/
def Obligations.ConsumerValueIsTested : Prop :=
  (∀ (r x : Fin 16) (addr : Word) (beats : List Beat) (s : State) (v : Word) (k : Nat), Offered addr beats s → k < 4 →
    Active s r → (s.ring r).state ≠ .enabling → OutsideArea s (writtenBytes addr.toNat beats) → NoRewrite s addr beats →
    (∀ q, q ≠ r → ClearOf s (writtenBytes addr.toNat beats) q) →
    (∀ q, NothingHeld s (writtenBytes addr.toNat beats) q) →
    Misses (s.ring r).desc.base ((s.ring r).desc.slotCount * (s.ring r).desc.slotSize)
      (writtenBytes addr.toNat beats) → Misses (s.ring r).desc.prodAddr 4 (writtenBytes addr.toNat beats) →
    let g := { s.ring r with valueFrom := some x }
    let occ := (g.prod - v).toNat
    let kept (a : Assembly) : State :=
      let u := forwarded (plainWrite x addr beats) s
      { u with lif := { u.lif with consShadow := s.lif.consShadow.set r a } }
    (writtenBytes addr.toNat beats = (wordAt (s.ring r).desc.consAddr v).drop k →
      k = 0 ∨ s.lif.consShadow[r] = (wordBytes v).take k →
      exec (.ulinkWrite x addr beats) s = .next
        (if occ > g.desc.slotCount then
          raised [event .rmn .indexInvalid .ring r.val v.toNat 0 0] (withRing r g (kept []))
        else
          raised (markEvent r g occ) (withRing r { g with cons := v, above := aboveAfter g occ } (kept [])))) ∧
    (0 < k → writtenBytes addr.toNat beats = (wordAt (s.ring r).desc.consAddr v).take k → s.lif.consShadow[r] = [] →
      exec (.ulinkWrite x addr beats) s = .next (kept ((wordBytes v).take k)))) ∧
  (∀ (k : Fin 3) (x : Fin 16) (addr : Word) (beats : List Beat) (s : State) (v : Word) (n : Nat), Offered addr beats s → n < 4 →
    s.lif.hostShadow = (wordAt (0x5000 + 4 * k.val) v).take n → OffTheRings s addr beats →
    writtenBytes addr.toNat beats = (wordAt (s.areaBase + 0x5000 + 4 * k.val) v).drop n →
    s.ccu.part ≠ .dormant → s.ccu.part ≠ .initialising →
    let f := caught x (forwarded (plainWrite x addr beats) s)
    let u : State := { f with lif := { f.lif with hostShadow := [] } }
    let q := s.rpw
    (k = 0 → (v - q.done).toNat ≤ 256 ∧ (q.exec = .idle ∨ v ≠ q.done) →
      exec (.ulinkWrite x addr beats) s = .next { u with rpw := { q with prod := v } }) ∧
    (k = 0 → ¬((v - q.done).toNat ≤ 256 ∧ (q.exec = .idle ∨ v ≠ q.done)) →
      exec (.ulinkWrite x addr beats) s = .next
        (raised [event .rpw .commandIndexInvalid .part 0 v.toNat q.done.toNat q.prod.toNat] u)) ∧
    (k = 1 → (q.evProd - v).toNat ≤ 1024 →
      exec (.ulinkWrite x addr beats) s = .next { u with rpw := { q with evCons := v } }) ∧
    (k = 1 → 1024 < (q.evProd - v).toNat →
      exec (.ulinkWrite x addr beats) s = .next
        (raised [event .rpw .indexInvalid .outputRing 0 v.toNat q.evProd.toNat q.evCons.toNat] u)) ∧
    (k = 2 → 1024 < (q.dgProd - v).toNat →
      exec (.ulinkWrite x addr beats) s = .next
        (raised [event .rpw .indexInvalid .outputRing 1 v.toNat q.dgProd.toNat q.dgCons.toNat] u)) ∧
    (k = 2 → (q.dgProd - v).toNat ≤ 1024 →
      let starts : Bool := decide (1 ≤ (v - q.dgCons).toNat ∧ (v - q.dgCons).toNat ≤ (q.dgProd - q.dgCons).toNat) &&
        !s.rfm.draining && decide (0 < s.rfm.pendingCount)
      exec (.ulinkWrite x addr beats) s = .next { u with
        rpw := { q with dgCons := v }
        rfm := if starts then
            if s.ccu.part = .suspended then { s.rfm with startKept := true } else { s.rfm with draining := true }
          else s.rfm }))

/-- R31, R32, R33: the producer's first write into the first 256 bytes of a slot it may fill takes the FREE buffer with the
lowest number (the model's choice, log 21), which is FILLING for the ring, the slot and the capture index, unwritten bytes
reading 0; nothing else of the ring or of the ring monitor changes. -/
def Obligations.ProducerWriteIsCaptured : Prop :=
  ∀ (r x : Fin 16) (addr : Word) (beats : List Beat) (s : State) (sl : Nat) (b : Fin 64), Offered addr beats s →
    writtenBytes addr.toNat beats ≠ [] → s.ccu.part = .running → (s.ring r).state = .enabled →
    (s.ring r).desc.dir = .uplink → ((s.ring r).desc.prodInit = 16 ∨ (s.ring r).desc.prodInit = x.val) →
    sl < (s.ring r).desc.slotCount → 256 ≤ (s.ring r).desc.slotSize →
    (∀ ab ∈ writtenBytes addr.toNat beats, (s.ring r).desc.base + sl * (s.ring r).desc.slotSize ≤ ab.1 ∧
      ab.1 < (s.ring r).desc.base + sl * (s.ring r).desc.slotSize + 256) →
    (BitVec.ofNat 32 sl - (s.ring r).prod).toNat % (s.ring r).desc.slotCount <
      (s.ring r).desc.slotCount - ((s.ring r).prod - (s.ring r).cons).toNat →
    mapGet (s.ring r).slotMap sl = none → (s.buffer b).st = .free → (∀ c : Fin 64, c < b → (s.buffer c).st ≠ .free) →
    OutsideArea s (writtenBytes addr.toNat beats) → NoRewrite s addr beats →
    (∀ q, q ≠ r → ClearOf s (writtenBytes addr.toNat beats) q) →
    (∀ q, NothingHeld s (writtenBytes addr.toNat beats) q) →
    Misses (s.ring r).desc.prodAddr 4 (writtenBytes addr.toNat beats) →
    Misses (s.ring r).desc.consAddr 4 (writtenBytes addr.toNat beats) →
    ∃ t, exec (.ulinkWrite x addr beats) s = .next t ∧ SameBut true true false false false false false false false s t ∧
      t.lif = { s.lif with forwardPath := s.lif.forwardPath ++ [plainWrite x addr beats] } ∧
      mapGet (t.ring r).slotMap sl = some (.filling b (indexOf (s.ring r) sl)) ∧
      (t.buffer b).st = .filling r sl (indexOf (s.ring r) sl) ∧
      t.ring r = { s.ring r with slotMap := (t.ring r).slotMap } ∧
      t.rmn = { s.rmn with rings := t.rmn.rings, buffers := t.rmn.buffers } ∧
      (∀ k, k ≠ sl → mapGet (t.ring r).slotMap k = mapGet (s.ring r).slotMap k) ∧
      (∀ q, q ≠ r → t.ring q = s.ring q) ∧ (∀ c, c ≠ b → t.buffer c = s.buffer c) ∧
      (∀ o : Fin 256, (t.buffer b).bytes[o] =
        ((writtenBytes addr.toNat beats).lookup
          ((s.ring r).desc.base + sl * (s.ring r).desc.slotSize + o.val)).getD 0)

/-- R1, R5: a read joins the forward path whatever windows it covers, and changes nothing else. -/
def Obligations.ReadIsForwarded : Prop :=
  ∀ (x : Fin 16) (addr : Word) (n : Nat) (s : State), s.pins.inReset = false → s.lif.forwardPath.length < 16 →
    s.lif.injWaiting = [] → addr.toNat % 16 = 0 → 1 ≤ n ∧ n ≤ 16 →
    exec (.ulinkRead x addr n) s = .next (forwarded
      { initiator := x, addr := addr, isRead := true, burst := n, beats := [], direct := true, held := [] } s)

/-- R17, R18: the arbiter's table, with no request waiting for a place. R16: where requests wait, the one that waits longest
takes the place of the entry granted, and the other requests of its block go behind those of the blocks that have waited
longer (the model's reading, log 8). R145, R146, R180: the closing write of a snapshot that takes it gives the command its
status, whose write is requested then. -/
def Obligations.ArbiterSharesTheDlink : Prop :=
  (∀ (s : State) (f : List FwdTxn) (e : List InjEntry) (a : FwdTxn) (d : InjEntry),
    s.pins.inReset = false → s.lif.injWaiting = [] →
    let issuable := d.ordered = false ∨ ∀ q ∈ s.lif.injInFlight, q.isRead = true
    let grantF (c : Nat) := { s with lif := { s.lif with
      forwardPath := f, fwdInFlight := s.lif.fwdInFlight ++ [a], arbCount := c } }
    let grantI := { s with lif := { s.lif with
      injQueue := e, injInFlight := s.lif.injInFlight ++ [d], arbCount := 0 } }
    (s.lif.forwardPath = a :: f → s.lif.injQueue = d :: e → issuable → s.lif.arbCount < s.ccu.cfg.passShare →
      exec .dlinkGrant s = .next (grantF (s.lif.arbCount + 1))) ∧
    (s.lif.forwardPath = a :: f → s.lif.injQueue = d :: e → issuable → s.ccu.cfg.passShare ≤ s.lif.arbCount →
      exec .dlinkGrant s = .next grantI) ∧
    (s.lif.forwardPath = [] → s.lif.injQueue = d :: e → issuable → exec .dlinkGrant s = .next grantI) ∧
    (s.lif.forwardPath = a :: f → (s.lif.injQueue = d :: e ∧ ¬issuable ∨ s.lif.injQueue = []) →
      exec .dlinkGrant s = .next (grantF s.lif.arbCount))) ∧
  (∀ (s : State) (e : List InjEntry) (d : InjEntry) (b : Block) (op : InjOp) (rest : List (Block × InjOp)),
    s.pins.inReset = false → s.lif.forwardPath = [] → s.lif.injQueue = d :: e → s.lif.injQueue.length = 16 →
    d.ordered = false → s.lif.injWaiting = (b, op) :: rest →
    let taken (l : List (Block × InjOp)) (entry : InjEntry) : Lif := { s.lif with
      injQueue := e ++ [entry]
      injInFlight := s.lif.injInFlight ++ [d]
      arbCount := 0
      injWaiting := (l.filter fun w => w.1 != b) ++ l.filter fun w => w.1 == b }
    (∀ r, op = .ringRecord r → b = .rmn →
      exec .dlinkGrant s = .next { s with lif := taken rest (ringEntry r (s.ring r) s) }) ∧
    (∀ n : Fin 64, n.val < 63 → op = .snapRow n → b = .cvm →
      exec .dlinkGrant s = .next { s with
        lif := taken rest (areaEntry .cvm (0x20000 + 256 * n.val) (beatsOf (s.rowBytes n)) false s)
        cvm := { s.cvm with copied := s.cvm.copied + 1, nextBin := s.cvm.nextBin + 1 } }) ∧
    (op = .snapClosing → b = .cvm → s.rpw.exec = .executing → (∀ q ∈ s.rpw.events, q.ofCommand = false) →
      let status : Status := if s.cvm.outcome = .done then .done else .partialDone
      let bytes := leBytes 1 (statusCode status) ++ siteBytes s.site
      exec .dlinkGrant s = .next { s with
        lif := taken (rest ++ [(.rpw, .commandStatus (s.rpw.done.toNat % 256) bytes)])
          (areaEntry .cvm 0x8020 (beatsOf (leBytes 4 s.cvm.gen.toNat)) true s)
        rpw := { s.rpw with result := some status } }))

/-- R2: memory's answer to a transaction that was not held goes to the initiator that issued it. R9, R11, R19: the answer to a
part of a held write is kept while another part is out, and with the last part answered the initiator has its one response,
ERROR if any part's answer was. -/
def Obligations.MemoryAnswerReachesTheInitiator : Prop :=
  ∀ (i : Nat) (ok : Bool) (data : List (BitVec 128)) (s : State) (q : FwdTxn), s.pins.inReset = false →
    s.lif.injWaiting = [] → s.lif.fwdInFlight[i]? = some q → (q.isRead = true → data.length = q.burst) →
    let rest := s.lif.fwdInFlight.eraseIdx i
    (q.direct = true → exec (.forwardResponse i ok data) s = .next
      { s with lif := { s.lif with
        fwdInFlight := rest
        uOut := s.lif.uOut ++ [{ initiator := q.initiator, ok := ok, data := if q.isRead then data else [] }] } }) ∧
    (∀ id, q.direct = false → q.held = [id] →
      let out : Prop := (∃ r, id ∈ (s.slot r).withheld ∨ id ∈ (s.slot r).joined) ∨
        (∃ t ∈ s.lif.forwardPath, id ∈ t.held) ∨ ∃ t ∈ rest, id ∈ t.held
      (out → exec (.forwardResponse i ok data) s = .next
        { s with lif := { s.lif with
          fwdInFlight := rest
          heldTxns := s.lif.heldTxns.map fun h => if h.id = id then { h with err := h.err || !ok } else h } }) ∧
      (¬out → ∀ h, (s.lif.heldTxns.find? fun h => h.id == id) = some h →
        exec (.forwardResponse i ok data) s = .next
          { s with lif := { s.lif with
            fwdInFlight := rest
            heldTxns := s.lif.heldTxns.filter fun h => h.id != id
            uOut := s.lif.uOut ++ [{ initiator := h.initiator, ok := !(h.err || !ok), data := [] }] } }))

/-- R38, R40: the answer to a receipt lowers the outstanding count by one; with receipts still outstanding, slots still to
commit or no commit in progress it does nothing else. -/
def Obligations.ReceiptAnswerCountsDown : Prop :=
  ∀ (i : Nat) (s : State) (e : InjEntry) (r : Fin 16), s.pins.inReset = false → s.lif.injWaiting = [] →
    s.lif.injInFlight[i]? = some e → e.isRead = false → e.tag = .receipt r (s.ring r).gen →
    (∀ c, (s.ring r).commit = some c → (s.ring r).prod ≠ c.target ∨ 2 ≤ (s.ring r).outstanding) →
    exec (.injectedWriteAnswer i true) s = .next
      (withRing r { s.ring r with outstanding := (s.ring r).outstanding - 1 }
        { s with lif := { s.lif with injInFlight := s.lif.injInFlight.eraseIdx i } })

/-- R11, R40: the last receipt answer of a commit that has reached its target releases the held write, whole, with the
transactions it answers, and the slot is EMPTY. -/
def Obligations.LastReceiptReleasesTheHeldWrite : Prop :=
  ∀ (i : Nat) (s : State) (e : InjEntry) (r : Fin 16), s.pins.inReset = false → s.lif.injWaiting = [] →
    s.lif.injInFlight[i]? = some e → e.isRead = false → e.tag = .receipt r (s.ring r).gen →
    (s.ring r).outstanding = 1 → (s.ring r).commit = some { target := (s.ring r).prod, byRequest := true } →
    (s.slot r).status = .committing → (s.slot r).pend = [] → (s.slot r).target = some (s.ring r).prod →
    (∀ q, q ≠ r → (s.ring q).desc.prodAddr = (s.ring r).desc.prodAddr → (s.slot q).status = .empty) →
    exec (.injectedWriteAnswer i true) s = .next
      (withSlot r .empty (withRing r { s.ring r with outstanding := 0, commit := none }
        (forwarded
          { initiator := (s.slot r).lastInit
            addr := BitVec.ofNat 32 ((s.ring r).desc.prodAddr / 16 * 16)
            isRead := false
            burst := 1
            beats := [beatAt ((s.ring r).desc.prodAddr % 16) (wordBytes (s.ring r).prod)]
            direct := false
            held := (s.slot r).withheld ++ (s.slot r).joined }
          { s with lif := { s.lif with injInFlight := s.lif.injInFlight.eraseIdx i } })))

/-- R20, R181, R189: the answer to a command's status write raises the done index by 1 and publishes it with the section,
after which the executor is IDLE; the answer to a section publishes its indices. An ERROR answer does the same, and raises
MEMORY_ERROR before it, but for a write with the event-ring mark. -/
def Obligations.WriteAnswersPublish : Prop :=
  ∀ (i : Nat) (ok : Bool) (s : State) (e : InjEntry), s.lif.injInFlight[i]? = some e → e.isRead = false → Ready 1 s →
    let err : List EventReq := [event .lif .memoryError .block (blockCode e.block) e.addr.toNat 0 0]
    let u : State := raised (if ok || e.eventMark then [] else err)
      { s with lif := { s.lif with injInFlight := s.lif.injInFlight.eraseIdx i } }
    (e.tag = .commandStatus →
      exec (.injectedWriteAnswer i ok) s = .next
        { injected (indicesEntry false { s with rpw := { s.rpw with done := s.rpw.done + 1 } }) u with
          rpw := { u.rpw with done := s.rpw.done + 1, exec := .idle, result := none } }) ∧
    (∀ E D, e.tag = .indices E D → exec (.injectedWriteAnswer i ok) s = .next
      { u with rpw := { u.rpw with pubEv := E, pubDg := D } }) ∧
    (e.tag = .plain → exec (.injectedWriteAnswer i ok) s = .next u)

/-- R17, R20, R171: an index read of area initialisation keeps the word it reads; an ERROR answer gives 0 and raises
MEMORY_ERROR. -/
def Obligations.IndexReadKeepsItsWord : Prop :=
  ∀ (i : Nat) (data : BitVec 128) (s : State) (e : InjEntry) (w : Fin 3), s.pins.inReset = false →
    s.lif.injWaiting = [] → s.lif.injInFlight[i]? = some e → e.isRead = true → e.eventMark = false →
    e.tag = .initRead w →
    let u (v : Word) : State := { s with
      lif := { s.lif with injInFlight := s.lif.injInFlight.eraseIdx i }
      ccu := { s.ccu with initReads := s.ccu.initReads.set w (some v) } }
    exec (.injectedReadAnswer i true data) s = .next (u (data.extractLsb' (32 * w.val) 32)) ∧
    exec (.injectedReadAnswer i false data) s = .next
      (raised [event .lif .memoryError .block (blockCode e.block) e.addr.toNat 0 0] (u 0))

/-- R27: the consumer word's answer completes the baseline of an ENABLING ring that kept no value and no target: P and C
are the words read, the watermark state is set without an event, the ring is ENABLED and its record is written. -/
def Obligations.BaselineEnablesTheRing : Prop :=
  ∀ (i : Nat) (data : BitVec 128) (s : State) (e : InjEntry) (r : Fin 16) (p : Word), Ready 1 s →
    s.lif.injInFlight[i]? = some e → e.isRead = true → e.tag = .baseline r (s.ring r).gen true →
    s.ccu.part = .running → (s.ring r).state = .enabling → (s.ring r).baseP = some p → (s.ring r).keptC = none →
    s.slot r = .empty →
    let c : Word := data.extractLsb' (8 * ((s.ring r).desc.consAddr % 16)) 32
    (p - c).toNat ≤ (s.ring r).desc.slotCount →
    ∃ t, exec (.injectedReadAnswer i true data) s = .next t ∧
      SameBut true true false false false false false false false s t ∧
      t.rmn = (withRing r
        { s.ring r with
          baseC := some c, prod := p, cons := c, above := decide ((s.ring r).desc.high ≤ (p - c).toNat),
          state := .enabled } s).rmn ∧
      t.lif.injInFlight = s.lif.injInFlight.eraseIdx i ∧ t.lif.forwardPath = s.lif.forwardPath ∧
      t.lif.injQueue = s.lif.injQueue ++ [ringEntry r (t.ring r) s]

/-! ## The rings -/

/-- R28, R177: DISABLING ends for a ring with nothing in progress and its enable off: the ring is DISABLED, its slot map empty,
its buffers and trackers FREE, its slot EMPTY, and its record is written. -/
def Obligations.DisablingEnds : Prop :=
  ∀ (r : Fin 16) (s : State), Ready 1 s → (s.ring r).state = .disabling → (s.ring r).commit = none →
    (s.ring r).outstanding = 0 → s.baselineOut r = false → (s.ring r).desc.enable = false → s.slot r = .empty →
    ∃ t, exec (.ringDisableComplete r) s = .next t ∧ SameBut true true false false false false false false false s t ∧
      t.ring r = { s.ring r with state := .disabled, slotMap := [] } ∧ (∀ q, q ≠ r → t.ring q = s.ring q) ∧
      (∀ b sl j, (t.buffer b).st ≠ .filling r sl j) ∧ (∀ k, (s.tracker k).ring = r → (t.tracker k).st = .free) ∧
      t.slot r = .empty ∧ t.lif.prodShadow[r] = [] ∧ t.lif.consShadow[r] = [] ∧
      t.lif.forwardPath = s.lif.forwardPath ∧ t.rmn.dispatch = s.rmn.dispatch ∧
      t.lif.injQueue = s.lif.injQueue ++ [ringEntry r (t.ring r) s]

/-- R36, R37, R38: a slot that holds no buffer for its index commits UNCAPTURED: reason EXHAUSTED or FOREIGN where it is MISSED
at this index, else NOT_WRITTEN. Its receipt joins the injection queue, P rises by 1, the watermarks are evaluated. That P
rises also in a ring that a consumer value behind C has left full is the model's choice (log 62). -/
def Obligations.UncapturedSlotCommits : Prop :=
  ∀ (r : Fin 16) (s : State) (c : Commit), Ready 1 s → s.working = true → (s.ring r).state = .enabled →
    (s.ring r).desc.dir = .uplink → (s.ring r).desc.receipts = true → (s.ring r).commit = some c →
    (s.ring r).prod ≠ c.target → r ∉ s.rmn.paused →
    let g := s.ring r
    let sl := g.prod.toNat % g.desc.slotCount
    let occ := (g.prod + 1 - g.cons).toNat
    let commits (reason : Nat) : Prop :=
      exec (.slotCommit r) s = .next (raised (markEvent r g occ) (withRing r
        { g with
          slotMap := mapDel sl g.slotMap, prod := g.prod + 1, outstanding := g.outstanding + 1,
          above := aboveAfter g occ }
        (injected (receiptEntry r g 5 reason 0 s) s)))
    (mapGet g.slotMap sl = none → commits 8) ∧
    (mapGet g.slotMap sl = some (.missed .exhausted g.prod) → commits 6) ∧
    (mapGet g.slotMap sl = some (.missed .foreign g.prod) → commits 7) ∧
    (∀ w i, i ≠ g.prod → mapGet g.slotMap sl = some (.missed w i) → commits 8)

/-- R36, R37, R38, R42: the slot of a captured frame commits with the verdict of the first test that fails, and its receipt.
An ACCEPTED frame: dispatch entry, QUEUED buffer, P + 1; R39: with the dispatch queue full the commit pauses, and nothing else
happens. A frame that is MALFORMED, FOREIGN_DOMAIN or IGNORED_KIND: its buffer is FREE, a MALFORMED one raises FRAME_MALFORMED
with its reason, and P + 1. R39, R43: the release of the head frame, here one that touches no entry, gives its place to the
oldest paused commit, which goes on from its receipt. That P rises also in a ring that a consumer value behind C has left full is
the model's choice (log 62). -/
def Obligations.AcceptedFrameIsDispatched : Prop :=
  (∀ (r : Fin 16) (s : State) (c : Commit) (b : Fin 64), Ready 1 s → s.working = true → (s.ring r).state = .enabled →
    (s.ring r).desc.dir = .uplink → (s.ring r).desc.receipts = true → (s.ring r).commit = some c →
    (s.ring r).prod ≠ c.target → r ∉ s.rmn.paused →
    let g := s.ring r
    let sl := g.prod.toNat % g.desc.slotCount
    let occ := (g.prod + 1 - g.cons).toNat
    mapGet g.slotMap sl = some (.filling b g.prod) → (s.buffer b).st = .filling r sl g.prod →
    let f := (s.buffer b).bytes
    let v := verdictOf s.ccu.cfg g.desc f
    let g' : Ring := { g with
      slotMap := mapDel sl g.slotMap, prod := g.prod + 1, outstanding := g.outstanding + 1, above := aboveAfter g occ }
    (v = (1, 0) → 32 ≤ s.rmn.dispatch.length →
      exec (.slotCommit r) s = .next { s with rmn := { s.rmn with paused := s.rmn.paused ++ [r] } }) ∧
    (v = (1, 0) → s.rmn.dispatch.length < 32 →
      ∃ t, exec (.slotCommit r) s = .next t ∧ SameBut true true false false false false false false true s t ∧
        t.ring r = g' ∧ (∀ q, q ≠ r → t.ring q = s.ring q) ∧
        t.buffer b = { s.buffer b with st := .queued } ∧ (∀ d, d ≠ b → t.buffer d = s.buffer d) ∧
        t.rmn.dispatch = s.rmn.dispatch ++ [{ ring := r, index := g.prod, runTime := s.tbs.runClock, buf := b }] ∧
        t.rpw = { s.rpw with events := s.rpw.events ++ markEvent r g occ } ∧
        t.lif = (injected (receiptEntry r g 1 0 (frameLen f) s) s).lif) ∧
    (v ≠ (1, 0) →
      let events := if v.1 = 2 then [event .rmn .frameMalformed .ring r.val g.prod.toNat v.2 0] else []
      exec (.slotCommit r) s = .next (raised (events ++ markEvent r g occ) (withRing r g'
        (injected (receiptEntry r g v.1 v.2 (frameLen f) s) { s with rmn := { s.rmn with
          buffers := s.rmn.buffers.set b { s.buffer b with st := .free }, exhausted := false } }))))) ∧
  (∀ (r : Fin 16) (s : State) (b : Fin 64) (e : DispatchEntry) (rest : List DispatchEntry) (more : List (Fin 16)),
    Ready 1 s → s.working = true → s.rmn.dispatch = e :: rest → s.rmn.handling = none → s.rmn.paused = r :: more →
    s.ccu.cfg.coverageEn = false → 5 ≤ frameKind (s.buffer e.buf).bytes →
    (frameTid (s.buffer e.buf).bytes = 0 ∨ frameTid (s.buffer e.buf).bytes = 0xFFFF) →
    (s.ring r).desc.receipts = true → b ≠ e.buf →
    let g := s.ring r
    let sl := g.prod.toNat % g.desc.slotCount
    let occ := (g.prod + 1 - g.cons).toNat
    mapGet g.slotMap sl = some (.filling b g.prod) → (s.buffer b).st = .filling r sl g.prod →
    ∃ t, exec .dispatchFrame s = .next t ∧ SameBut true true false false false false false false true s t ∧
      t.ring r = { g with
        slotMap := mapDel sl g.slotMap, prod := g.prod + 1, outstanding := g.outstanding + 1, above := aboveAfter g occ } ∧
      (∀ q, q ≠ r → t.ring q = s.ring q) ∧ t.rmn.paused = more ∧
      t.rmn.dispatch = rest ++ [{ ring := r, index := g.prod, runTime := s.tbs.runClock, buf := b }] ∧
      t.buffer e.buf = { s.buffer e.buf with st := .free } ∧ t.buffer b = { s.buffer b with st := .queued } ∧
      (∀ d, d ≠ b → d ≠ e.buf → t.buffer d = s.buffer d) ∧
      t.rpw = { s.rpw with events := s.rpw.events ++ markEvent r g occ } ∧
      t.lif = (injected (receiptEntry r g 1 0 (frameLen (s.buffer b).bytes) s) s).lif)

/-- R41, R89, R96, R98: a downlink slot with no record, or a PASSED one, commits with P + 1 alone; a SKIPPED one, and a
TRACKED one whose beat 1 never came, also raises REWRITE_SKIPPED with its cause and the terminal of its header facts. R77,
R97: where the record holds header facts, a length out of range raises FRAME_MALFORMED; otherwise the command joins the
pending list of the context bound to its terminal, as the newest where its stamp is not older than theirs. A step that raises
an event waits behind it where the events have not each a place (the model's choice of when, log 53): the commit is held with
the run time it read, and goes on from there, with the record as it then stands, once they have. One REWRITE_SKIPPED is raised
for a slot at most, so also where a commit of the slot was given up after it had raised one; that an extension to P gives the
slot up is the model's choice (log 14), and so is that P rises also in a ring that a consumer value behind C has left full
(log 62). -/
def Obligations.DownlinkSlotCommits : Prop :=
  ∀ (r : Fin 16) (s : State) (c : Commit), s.pins.inReset = false → s.lif.injWaiting = [] → s.working = true →
    (s.ring r).state = .enabled → (s.ring r).desc.dir = .downlink → (s.ring r).commit = some c →
    (s.ring r).prod ≠ c.target → (s.ring r).outstanding = 0 → c.byRequest = false →
    let g := s.ring r
    let sl := g.prod.toNat % g.desc.slotCount
    let occ := (g.prod + 1 - g.cons).toNat
    let now := s.tbs.runClock
    let g' : Ring := { g with
      slotMap := mapDel sl g.slotMap
      prod := g.prod + 1
      above := aboveAfter g occ
      commit := if g.prod + 1 = c.target then none else some c }
    let room (n : Nat) : Prop := RoomForEvents .rmn n s
    let skip (code tid : Nat) : EventReq := event .rmn .rewriteSkipped .ring r.val g.prod.toNat code tid
    let malformed : EventReq := event .rmn .frameMalformed .ring r.val g.prod.toNat 3 0
    let commits (events : List EventReq) (u : State) : Prop :=
      exec (.downlinkSlotCommit r) s = .next (raised (events ++ markEvent r g occ) (withRing r g' u))
    let holds (time : Nat) (measured told : Bool) (events : List EventReq) : Prop :=
      exec (.downlinkSlotCommit r) s = .next (raised events
        (withMidway r (some { runTime := time, measured := measured, told := told, givenUp := false }) s))
    let withFacts (f : Facts) (events : List EventReq) (time stamp : Nat) (told : Bool) (u : State) : Prop :=
      (f.len < 32 ∨ g.desc.slotSize < f.len → room (events.length + 1) → commits (events ++ [malformed]) u) ∧
      (f.len < 32 ∨ g.desc.slotSize < f.len → events = [] ∨ room 1 → ¬room (events.length + 1) →
        holds time true told (events ++ [malformed])) ∧
      (32 ≤ f.len → f.len ≤ g.desc.slotSize → events = [] ∨ room 1 → s.findTerm f.tid = none → commits events u) ∧
      (∀ i k, 32 ≤ f.len → f.len ≤ g.desc.slotSize → events = [] ∨ room 1 → s.findTerm f.tid = some i →
        (s.entry i).ctx = some k → (s.crane k).st ≠ .unbound → (∀ q ∈ (s.crane k).cmds, q.seq ≠ f.seq ∧ q.stamp ≤ stamp) →
        commits events (withCrane k (commandFiled { seq := f.seq, stamp := stamp } (s.crane k)) u))
    let begins (told : Bool) (u : State) : Prop :=
      let first (code tid : Nat) : List EventReq := if told then [] else [skip code tid]
      let waits (code tid : Nat) : Prop := told = false → ¬room 1 → holds now false true [skip code tid]
      (mapGet g.slotMap sl = none ∨ mapGet g.slotMap sl = some (.passed g.prod) → commits [] u) ∧
      (∀ w, mapGet g.slotMap sl = some (.skipped w none g.prod) →
        (told = true ∨ room 1 → commits (first (skipCode w) 0xFFFF) u) ∧ waits (skipCode w) 0xFFFF) ∧
      (∀ w f, mapGet g.slotMap sl = some (.skipped w (some f) g.prod) →
        withFacts f (first (skipCode w) f.tid.toNat) now now true u ∧ waits (skipCode w) f.tid.toNat) ∧
      (∀ k, mapGet g.slotMap sl = some (.tracked k g.prod) →
        let f := (s.tracker k).facts
        ((s.tracker k).st = .opened →
          withFacts f (first 5 f.tid.toNat) now now true (trackerFreed k u) ∧ waits 5 f.tid.toNat) ∧
        ((s.tracker k).st = .done → withFacts f [] now ((s.tracker k).stamp.getD now) told (trackerFreed k u)))
    (s.rmn.midway[r] = none → begins false s) ∧
    (∀ h, s.rmn.midway[r] = some h → h.givenUp = true → begins h.told (withMidway r none s)) ∧
    (∀ h, s.rmn.midway[r] = some h → h.givenUp = false →
      let u := withMidway r none s
      (¬room 0 → exec (.downlinkSlotCommit r) s = .next s) ∧
      (room 0 → h.measured = true →
        (mapGet g.slotMap sl = none ∨ mapGet g.slotMap sl = some (.passed g.prod) ∨
          (∃ w f, mapGet g.slotMap sl = some (.skipped w f g.prod)) → commits [] u) ∧
        (∀ k, mapGet g.slotMap sl = some (.tracked k g.prod) → commits [] (trackerFreed k u))) ∧
      (room 0 → h.measured = false →
        (mapGet g.slotMap sl = none ∨ mapGet g.slotMap sl = some (.passed g.prod) ∨
          (∃ w, mapGet g.slotMap sl = some (.skipped w none g.prod)) → commits [] u) ∧
        (∀ w f, mapGet g.slotMap sl = some (.skipped w (some f) g.prod) → withFacts f [] h.runTime h.runTime h.told u) ∧
        (∀ k, mapGet g.slotMap sl = some (.tracked k g.prod) →
          ((s.tracker k).st = .opened → withFacts (s.tracker k).facts [] h.runTime h.runTime h.told (trackerFreed k u)) ∧
          ((s.tracker k).st = .done →
            withFacts (s.tracker k).facts [] h.runTime ((s.tracker k).stamp.getD h.runTime) h.told (trackerFreed k u)))))

/-- R43, R49, R51: a frame of class OTHER, coverage off and no commit paused, updates the directory entry of its terminal and
moves the attach counts (R47), and its buffer and its dispatch entry are released. R50: for an unknown terminal the FREE entry
with the lowest index is LEARNED first, with TERMINAL_LEARNED, or with no entry FREE DIRECTORY_FULL is raised; an id of 0 or
0xFFFF touches no entry. R107 to R113, R122, R123: a REEFER_REPORT frame with one entry of a known tag, in service with a valid
supply temperature and no alarm, also charges the interval from the dose clock within the hold cap, takes the sample, evaluates
the condition, makes the record REPORTING and triggers a digest where R122 says so: counted where one is owed, else written
into a free digest slot, else owed. That REEFER_BACK carries the new gateway id is the model's choice (log 48), and so is the
room that the record's events have, without which the frame waits behind them (log 53). -/
def Obligations.DispatchedFrameTouchesItsEntry : Prop :=
  (∀ (s : State) (e : DispatchEntry) (rest : List DispatchEntry), Dispatches e rest s → s.ccu.cfg.coverageEn = false →
    let f := (s.buffer e.buf).bytes
    let id := frameTid f
    let cell := servingCell s.ccu.cfg f
    5 ≤ frameKind f →
    (∀ i : Fin 256, s.findTerm id = some i →
      let old := s.entry i
      ∃ t, exec .dispatchFrame s = .next t ∧ SameBut false true true false false false false false false s t ∧
        t.rmn = frameReleased e rest s ∧ (∀ j, j ≠ i → t.entry j = s.entry j) ∧
        t.entry i = { old with
          lastSeen := s.tbs.runClock
          frames := min (old.frames + 1) 4294967295
          lastCell := cell.orElse fun _ => old.lastCell
          lastMargin := servingMargin old.lastMargin f
          lastBin := old.homeBin.orElse fun _ => old.lastBin } ∧
        t.tdr.attach = attachMove old.lastCell (cell.orElse fun _ => old.lastCell) s.tdr.attach) ∧
    (∀ i : Fin 256, id ≠ 0 → id ≠ 0xFFFF → s.findTerm id = none → (s.entry i).st = .free →
      (∀ j, j < i → (s.entry j).st ≠ .free) →
      ∃ t, exec .dispatchFrame s = .next t ∧ SameBut false true true false false false false false true s t ∧
        t.rmn = frameReleased e rest s ∧ (∀ j, j ≠ i → t.entry j = s.entry j) ∧
        t.entry i =
          { st := .learned, id := id, kind := .other, homeBin := none, lastBin := none, lastCell := cell,
            lastMargin := servingMargin none f, lastSeen := s.tbs.runClock, frames := 1, ctx := none,
            unboundMark := false } ∧
        t.tdr.attach = attachMove none cell s.tdr.attach ∧
        t.rpw = { s.rpw with
          events := s.rpw.events ++ [event .tdr .terminalLearned .terminal id.toNat 3 i.val e.ring.val] }) ∧
    (id ≠ 0 → id ≠ 0xFFFF → s.findTerm id = none → (∀ j, (s.entry j).st ≠ .free) →
      exec .dispatchFrame s = .next
        (raised [event .tdr .directoryFull .terminal id.toNat (frameKind f) e.ring.val 0]
          { s with rmn := frameReleased e rest s })) ∧
    (id = 0 ∨ id = 0xFFFF → exec .dispatchFrame s = .next { s with rmn := frameReleased e rest s })) ∧
  (∀ (s : State) (e : DispatchEntry) (rest : List DispatchEntry) (g : Fin 256) (i : Fin 2048) (clock : Nat),
    Dispatches e rest s → s.ccu.cfg.coverageEn = false → s.ccu.cfg.reeferEn = true → RoomForEvents .rfm 2 s →
    let f := (s.buffer e.buf).bytes
    let tag := entryTag f 0
    let x := entrySupply f 0
    frameKind f = 3 → frameCount f = 1 → s.findTerm (frameTid f) = some g → tag ≠ 0 → s.findReefer tag = some i →
    8 ≤ entryProfile f 0 → (entryFlags f 0).testBit 0 = true → (entryFlags f 0).testBit 1 = true →
    entryMode f 0 ≠ 0 → entryMode f 0 ≠ 3 → -500 ≤ x → x ≤ 600 → entryAlarm f 0 = 0 →
    let r := s.reefer i
    r.doseClock = some clock →
    let now := s.tbs.runClock
    let p := s.ccu.cfg.profiles[r.profile]
    let elapsed := (now - clock) / 1000000
    let counted := min elapsed p.holdCap
    let product := r.excess * counted + r.residue
    let dose := min (r.dose + product / 60) 16777215
    let reports := min (r.reports + 1) 4294967295
    let sp := max (-400) (min 300 (entrySetpoint f 0))
    let cond : Condition := if r.cond = .breach ∨ p.breachDose ≤ dose then .breach
      else if p.warnDose ≤ dose then .warn else .normal
    let triggered : Bool := decide (cond ≠ r.cond ∨ r.mode ≠ some (entryMode f 0) ∨ r.alarm ≠ 0 ∨
      s.ccu.cfg.digestPeriod ≠ 0 ∧ reports % s.ccu.cfg.digestPeriod = 0) || r.missing || r.sensorFault || r.off || r.defrost
    let full : Bool := decide (1024 ≤ (s.rpw.dgProd - s.rpw.dgCons).toNat)
    let owed : Bool := triggered && !r.pending && full
    let written : Bool := triggered && !r.pending && !full
    let after : Reefer := { r with
      gateway := frameTid f, gwHomeBin := (s.entry g).homeBin, gwSlot := entrySlot f 0, cond := cond,
      missing := false, reason := if r.missing then none else r.reason, sensorFault := false, off := false,
      defrost := false, mode := some (entryMode f 0), alarm := 0, setpoint := some sp, heldTemp := some x,
      excess := (max 0 (x - (sp + p.tolHi)) + max 0 (sp - p.tolLo - x)).toNat, lastReport := now,
      doseClock := some (clock + elapsed * 1000000), dose := dose, residue := product % 60,
      unobserved := min (r.unobserved + (elapsed - counted)) 4294967295, reports := reports,
      pending := r.pending || owed,
      triggers := if triggered && r.pending then min (r.triggers + 1) 255 else if owed then 1 else r.triggers }
    ∃ t, exec .dispatchFrame s = .next t ∧ SameBut true true true false true false false false true s t ∧
      t.rmn = frameReleased e rest s ∧ (∀ j, j ≠ g → t.entry j = s.entry j) ∧
      (∀ j, j ≠ i → t.reefer j = s.reefer j) ∧ t.rfm.draining = s.rfm.draining ∧ t.rfm.cursor = s.rfm.cursor ∧
      t.rfm.pendingCount = s.rfm.pendingCount + (if owed then 1 else 0) ∧ t.reefer i = after ∧
      t.lif = (if written then digestWritten after 1 s else s).lif ∧
      t.rpw = { s.rpw with
        dgProd := if written then s.rpw.dgProd + 1 else s.rpw.dgProd
        events := s.rpw.events ++
        ((if cond = r.cond ∨ cond = .normal then []
          else if cond = .breach then [event .rfm .reeferBreach .tag r.tag.toNat dose p.breachDose r.profile.val]
          else [event .rfm .reeferWarn .tag r.tag.toNat dose p.warnDose r.profile.val]) ++
        if r.missing then
          [event .rfm .reeferBack .tag r.tag.toNat (min ((now - r.lastReport) / 1000000) 4294967295 : Nat)
            (missCode r.reason) (frameTid f).toNat]
        else []) })

/-- R66, R67, R69: a CRANE_STATUS frame of a crane bound to a LIVE context, its deadline not passed (R82), by its sequence: in
order or with a gap it reloads the deadline, is taken as the last sequence and clears the miss count, a gap being counted lost;
a duplicate and a stale frame are counted and otherwise ignored. -/
def Obligations.InOrderStatusFrameKeepsTheCraneLive : Prop :=
  ∀ (s : State) (e : DispatchEntry) (rest : List DispatchEntry) (i : Fin 256) (k : Fin 32) (q : BitVec 16),
    Dispatches e rest s → s.ccu.cfg.coverageEn = false → s.ccu.cfg.craneEn = true →
    let f := (s.buffer e.buf).bytes
    let c := s.crane k
    frameKind f = 1 → s.findTerm (frameTid f) = some i → (s.entry i).ctx = some k → c.st = .live →
    c.tid = frameTid f → c.dirIndex = i → c.lastSeq = some q → (∀ d, c.countdown = some d → s.tbs.runClock ≤ d) →
    let d := (frameSeq f - q).toNat
    ∃ t, exec .dispatchFrame s = .next t ∧ t.rmn = frameReleased e rest s ∧
      SameBut false true true true false false false false true s t ∧
      (∀ j, j ≠ k → t.crane j = s.crane j) ∧ (∀ j, j ≠ i → t.entry j = s.entry j) ∧
      (d = 0 → t.crane k = { c with duplicate := min (c.duplicate + 1) 4294967295 } ∧ t.rpw = s.rpw) ∧
      (d = 1 ∨ 2 ≤ d ∧ d ≤ c.window →
        (t.crane k).st = .live ∧ (t.crane k).miss = 0 ∧ (t.crane k).lastSeq = some (frameSeq f) ∧
          (t.crane k).countdown = some (s.tbs.runClock + c.deadline) ∧
          (t.crane k).lost = (if d = 1 then c.lost else min (c.lost + (d - 1)) 4294967295) ∧
          (t.crane k).duplicate = c.duplicate ∧ (t.crane k).stale = c.stale ∧ (t.crane k).good = c.good ∧
          (t.crane k).lastPos = some (BitVec.ofNat 32 (framePos f)) ∧
          (t.crane k).prevArrival = some e.runTime ∧ (t.crane k).estop = frameEstop f) ∧
      (2 ≤ d → c.window < d → t.crane k = { c with stale := min (c.stale + 1) 4294967295 } ∧ t.rpw = s.rpw)

/-- R72, R76: an expiry reloads the countdown and acts by the state of the context. R73, R131, R132, R133: one taken in LIVE
or DEGRADED gives the last cell of the context's terminal in its bin a sample of PENALTY_MARGIN, folded with the bin's
evaluation or counted discarded; with either absent, or COVERAGE_EN 0, none is taken. That the countdown is reloaded from the
run clock of the step that takes the expiry (log 26) and that an absent bin is 0xFF in CRANE_DEGRADED (log 28) are the model's
choices. -/
def Obligations.ExpiryActsByState : Prop :=
  ∀ (k : Fin 32) (s : State) (e : Nat), s.pins.inReset = false → s.lif.injWaiting = [] → s.working = true →
    (s.crane k).st ≠ .unbound → (s.crane k).countdown = some e → e ≤ s.tbs.runClock →
    let c : Crane := { s.crane k with countdown := some (s.tbs.runClock + (s.crane k).deadline) }
    let miss := min (c.miss + 1) 15
    let tid : Int := c.tid.toNat
    ∃ t more, exec (.deadlineExpiry k) s = .next t ∧ SameBut false false false true false true false false true s t ∧
      (∀ j, j ≠ k → t.crane j = s.crane j) ∧
      (c.st = .watch ∨ c.st = .hold ∨ c.bin = none ∨ (s.entry c.dirIndex).lastCell = none ∨
        s.ccu.cfg.coverageEn = false → t.cvm = s.cvm ∧ more = []) ∧
      (∀ b i, c.st = .live ∨ c.st = .degraded → c.bin = some b → (s.entry c.dirIndex).lastCell = some i →
        s.ccu.cfg.coverageEn = true →
        (s.ccu.cfg.binCount ≤ b.val ∨ s.ccu.cfg.cellCount ≤ i.val →
          t.cvm = { s.cvm with discarded := min (s.cvm.discarded + 1) 4294967295 } ∧ more = []) ∧
        (b.val < s.ccu.cfg.binCount → i.val < s.ccu.cfg.cellCount → -64 ≤ s.ccu.cfg.penaltyMargin →
          t.cvm = { s.cvm with bins := t.cvm.bins, folded := min (s.cvm.folded + 1) 4294967295 } ∧
          (∀ d, d ≠ b → t.bin d = s.bin d) ∧
          Folded s.ccu.cfg s.tbs.runClock s.ccu.cfg.penaltyMargin i (s.bin b) (t.bin b) ∧
          Evaluated s.ccu.cfg s.tdr.attach b 2 (s.bin b) (t.bin b) more)) ∧
      (c.st = .watch → t.crane k = { c with good := 0 } ∧ t.rpw.events = s.rpw.events) ∧
      (c.st = .live → t.crane k = { c with st := .degraded, miss := 1 } ∧
        t.rpw.events = s.rpw.events ++
          event .csv .craneDegraded .context k.val tid 1 (optFin c.bin) :: more) ∧
      (c.st = .degraded → miss < c.holdLimit → t.crane k = { c with miss := miss } ∧
        t.rpw.events = s.rpw.events ++ more) ∧
      (c.st = .degraded → c.holdLimit ≤ miss →
        t.crane k = { c with st := .hold, holdCause := some .misses, good := 0, ready := false, miss := miss } ∧
        t.rpw.events = s.rpw.events ++ event .csv .craneHold .context k.val tid 1 miss :: more) ∧
      (c.st = .hold → t.crane k = { c with good := 0, ready := false } ∧ t.rpw.events = s.rpw.events)

/-! ## The host's commands -/

/-- R180: NOP reports DONE; a code that is no command UNKNOWN_COMMAND; a command whose job is off JOB_DISABLED: each
changes nothing but the executor and raises no event. -/
def Obligations.EmptyAndRefusedCommandsChangeNothing : Prop :=
  ∀ s : State,
    (Takes .nop s → exec .nop s = .next (completed .done s)) ∧
    (Takes .unknown s → exec .unknownCommand s = .next (completed .unknownCommand s)) ∧
    (Takes .bindCrane s → s.ccu.cfg.craneEn = false → exec .bindCrane s = .next (completed .jobDisabled s)) ∧
    (Takes .unbindCrane s → s.ccu.cfg.craneEn = false → exec .unbindCrane s = .next (completed .jobDisabled s)) ∧
    (Takes .forceHold s → s.ccu.cfg.craneEn = false → exec .forceHold s = .next (completed .jobDisabled s)) ∧
    (Takes .releaseHold s → s.ccu.cfg.craneEn = false → exec .releaseHold s = .next (completed .jobDisabled s)) ∧
    (Takes .addReefer s → s.ccu.cfg.reeferEn = false → exec .addReefer s = .next (completed .jobDisabled s)) ∧
    (Takes .clearDose s → s.ccu.cfg.reeferEn = false → exec .clearDose s = .next (completed .jobDisabled s)) ∧
    (Takes .retireReefer s → s.ccu.cfg.reeferEn = false → exec .retireReefer s = .next (completed .jobDisabled s)) ∧
    (Takes .resetBin s → s.ccu.cfg.coverageEn = false → exec .resetBin s = .next (completed .jobDisabled s)) ∧
    (Takes .snapshotCoverage s → s.ccu.cfg.coverageEn = false →
      exec .snapshotCoverage s = .next (completed .jobDisabled s))

/-- R154, R155: SET_TIME makes site time V at that moment, ADJUST_TIME moves the offset by A; each raises TIME_SET with the
old and the new site time and reports DONE. That the status write is not requested until TIME_SET is taken is the model's
choice (log 10). -/
def Obligations.TimeCommandsMoveTheOffset : Prop :=
  ∀ s : State,
    let v : Word64 := BitVec.ofNat 64 (rdLe s.nextRecord 8 6)
    let a : Word64 := BitVec.ofInt 64 (BitVec.ofNat 32 (rdLe s.nextRecord 8 4)).toInt
    let now : Word64 := BitVec.ofNat 64 s.tbs.runClock
    (Takes .setTime s → exec .setTime s = .next (owing .done
      [event .tbs .timeSet .part 0 1 (low48 s.site) (low48 v)] { s with tbs := { s.tbs with offset := v - now } })) ∧
    (Takes .adjustTime s → exec .adjustTime s = .next (owing .done
      [event .tbs .timeSet .part 0 2 (low48 s.site) (low48 (s.site + a))]
      { s with tbs := { s.tbs with offset := s.tbs.offset + a } }))

/-- R158, R159, R160: SWEEP_NOW begins a sweep that is IDLE, and counts an overrun of one that is RUNNING. That the status write
waits until SWEEP_OVERRUN is taken is the model's choice (log 10). -/
def Obligations.SweepNowBeginsOrOverruns : Prop :=
  ∀ s : State, Takes .sweepNow s →
    let n := min (s.tbs.overruns + 1) 4294967295
    (s.tbs.sweeping = false → exec .sweepNow s = .next (completed .done { s with tbs := sweepBegun s })) ∧
    (s.tbs.sweeping = true → exec .sweepNow s = .next (owing .done
      [event .tbs .sweepOverrun .part n 0 (phaseCode s.tbs.phase) s.tbs.cursor]
      { s with tbs := { s.tbs with restart := true, overruns := n } }))

/-- R54, R55: REGISTER_TERMINAL of a terminal that is not found takes the FREE entry with the lowest index, or, with none
FREE, that of the LEARNED terminal heard longest ago, which is evicted with LEARNED_EVICTED, and reports FULL where no entry
is FREE or LEARNED. One that is found is REGISTERED with the kind and the home bin of the command, its other fields kept but
for its last bin; a bound one keeps its kind CRANE, or the command is refused IN_USE. An argument out of range is refused.
That the status write waits until LEARNED_EVICTED is taken is the model's choice (log 10). -/
def Obligations.RegisterTerminalMakesAnEntry : Prop :=
  ∀ (s : State) (k : TermKind), Takes .registerTerminal s →
    let id := BitVec.ofNat 16 (rdLe s.nextRecord 8 2)
    let home := rdLe s.nextRecord 11 1
    (rdLe s.nextRecord 10 1 = termKindCode k → id ≠ 0 → id ≠ 0xFFFF → s.findTerm id = none →
      (∀ (h : Option (Fin 64)) (i : Fin 256), home = optFin h → (s.entry i).st = .free →
        (∀ j, j < i → (s.entry j).st ≠ .free) →
        exec .registerTerminal s = .next (completed .done (withEntry i
          { st := .registered, id := id, kind := k, homeBin := h, lastBin := h, lastCell := none, lastMargin := none,
            lastSeen := s.tbs.runClock, frames := 0, ctx := none, unboundMark := false } s))) ∧
      (∀ (h : Option (Fin 64)) (i : Fin 256), home = optFin h → (∀ j, (s.entry j).st ≠ .free) → (s.entry i).st = .learned →
        (∀ j, (s.entry j).st = .learned →
          (s.entry i).lastSeen < (s.entry j).lastSeen ∨ (s.entry i).lastSeen = (s.entry j).lastSeen ∧ i ≤ j) →
        let e := s.entry i
        let made := withEntry i
          { st := .registered, id := id, kind := k, homeBin := h, lastBin := h, lastCell := none, lastMargin := none,
            lastSeen := s.tbs.runClock, frames := 0, ctx := none, unboundMark := false } s
        let evicts (u : State) : Prop := exec .registerTerminal s = .next
          (owing .done [event .tdr .learnedEvicted .terminal e.id.toNat i.val e.frames id.toNat] u)
        (e.lastCell = none → evicts made) ∧
        (∀ c, e.lastCell = some c →
          evicts { made with tdr := { made.tdr with attach := s.tdr.attach.set c (s.tdr.attach[c] - 1) } })) ∧
      (home < 64 ∨ home = 255 → (∀ j, (s.entry j).st = .registered) →
        exec .registerTerminal s = .next (completed .full s))) ∧
    (∀ (h : Option (Fin 64)) (i : Fin 256), rdLe s.nextRecord 10 1 = termKindCode k → home = optFin h →
      s.findTerm id = some i →
      let e := s.entry i
      (e.st = .registered → e.ctx ≠ none → k ≠ .crane → exec .registerTerminal s = .next (completed .inUse s)) ∧
      (e.st = .learned ∨ e.ctx = none ∨ k = .crane → exec .registerTerminal s = .next (completed .done (withEntry i
        { e with
          st := .registered, kind := k, homeBin := h
          lastBin := if h ≠ none then h else if e.homeBin ≠ none then none else e.lastBin } s)))) ∧
    (4 ≤ rdLe s.nextRecord 10 1 ∨ id = 0 ∨ id = 0xFFFF ∨ (64 ≤ home ∧ home ≠ 255) →
      exec .registerTerminal s = .next (completed .badArgument s))

/-- R48, R56: DEREGISTER_TERMINAL. That the kind of a freed entry is CRANE, its id 0 and its last seen 0 is the model's
choice (log 30). -/
def Obligations.DeregisterTerminalFreesTheEntry : Prop :=
  ∀ s : State, Takes .deregisterTerminal s →
    let id := BitVec.ofNat 16 (rdLe s.nextRecord 8 2)
    (s.findTerm id = none → exec .deregisterTerminal s = .next (completed .notFound s)) ∧
    (id = 0 ∨ id = 0xFFFF → exec .deregisterTerminal s = .next (completed .notFound s)) ∧
    (∀ i, s.findTerm id = some i → (s.entry i).ctx ≠ none → exec .deregisterTerminal s = .next (completed .inUse s)) ∧
    (∀ i, s.findTerm id = some i → (s.entry i).ctx = none →
      let freed := withEntry i .reset s
      (∀ c, (s.entry i).lastCell = some c → exec .deregisterTerminal s = .next (completed .done
        { freed with tdr := { freed.tdr with attach := s.tdr.attach.set c (s.tdr.attach[c] - 1) } })) ∧
      ((s.entry i).lastCell = none → exec .deregisterTerminal s = .next (completed .done freed)))

/-- R62, R63: BIND_CRANE with its crane job on. -/
def Obligations.BindCraneBindsTheContext : Prop :=
  ∀ (s : State) (k : Fin 32) (i : Fin 256), Takes .bindCrane s → s.ccu.cfg.craneEn = true →
    let q := s.nextRecord
    let id := BitVec.ofNat 16 (rdLe q 10 2)
    let deadline := max 1000 (min 1000000 (rdLe q 12 4))
    (32 ≤ rdLe q 8 1 → exec .bindCrane s = .next (completed .badArgument s)) ∧
    (rdLe q 8 1 = k.val → (s.crane k).st ≠ .unbound → exec .bindCrane s = .next (completed .wrongState s)) ∧
    (rdLe q 8 1 = k.val → (s.crane k).st = .unbound → s.findTerm id = none ∨ id = 0 ∨ id = 0xFFFF →
      exec .bindCrane s = .next (completed .notFound s)) ∧
    (rdLe q 8 1 = k.val → (s.crane k).st = .unbound → s.findTerm id = some i →
      ((s.entry i).st ≠ .registered ∨ (s.entry i).kind ≠ .crane) →
      exec .bindCrane s = .next (completed .notFound s)) ∧
    (rdLe q 8 1 = k.val → (s.crane k).st = .unbound → s.findTerm id = some i → (s.entry i).st = .registered →
      (s.entry i).kind = .crane → (s.entry i).ctx ≠ none → exec .bindCrane s = .next (completed .inUse s)) ∧
    (rdLe q 8 1 = k.val → (s.crane k).st = .unbound → s.findTerm id = some i → (s.entry i).st = .registered →
      (s.entry i).kind = .crane → (s.entry i).ctx = none →
      exec .bindCrane s = .next (completed .done
        (withEntry i { s.entry i with ctx := some k, unboundMark := false }
          (withCrane k
            { st := .watch, tid := id, dirIndex := i, deadline := deadline,
              countdown := some (s.tbs.runClock + deadline), holdLimit := max 1 (min 15 (rdLe q 16 1)),
              goodRun := max 1 (min 255 (rdLe q 17 1)), window := max 1 (min 32767 (rdLe q 18 2)), good := 0, miss := 0,
              lastSeq := none, lost := 0, duplicate := 0, stale := 0, unanswered := 0, lastPos := none,
              bin := (s.entry i).lastBin, cmds := [], rtt := none, jitter := 0, prevSender := none,
              prevArrival := none, alarmRaised := false, ready := false, holdCause := none, estop := false } s))))

/-- R64: UNBIND_CRANE with its crane job on. That the frames of its terminal still on the dispatch queue go on naming the
context (R83), until the terminal is bound anew or its entry freed, is the model's choice (log 52). -/
def Obligations.UnbindCraneFreesTheContext : Prop :=
  ∀ (s : State) (k : Fin 32), Takes .unbindCrane s → s.ccu.cfg.craneEn = true →
    let n := rdLe s.nextRecord 8 1
    let naming (e : DispatchEntry) : DispatchEntry :=
      if frameTid (s.buffer e.buf).bytes = (s.crane k).tid then { e with named := some k } else e
    (32 ≤ n → exec .unbindCrane s = .next (completed .badArgument s)) ∧
    (n = k.val → (s.crane k).st = .unbound → exec .unbindCrane s = .next (completed .wrongState s)) ∧
    (n = k.val → (s.crane k).st ≠ .unbound → exec .unbindCrane s = .next (completed .done
      (withEntry (s.crane k).dirIndex { s.entry (s.crane k).dirIndex with ctx := none, former := some k }
        (withCrane k { s.crane k with st := .unbound, countdown := none, cmds := [], ready := false, holdCause := none }
          { s with rmn := { s.rmn with dispatch := s.rmn.dispatch.map naming } }))))

/-- R74: FORCE_HOLD with its crane job on. That its status write waits until CRANE_HOLD is taken is the model's choice (log
10). -/
def Obligations.ForceHoldEntersHold : Prop :=
  ∀ (s : State) (k : Fin 32), Takes .forceHold s → s.ccu.cfg.craneEn = true →
    let n := rdLe s.nextRecord 8 1
    (32 ≤ n → exec .forceHold s = .next (completed .badArgument s)) ∧
    (n = k.val → (s.crane k).st = .unbound → exec .forceHold s = .next (completed .wrongState s)) ∧
    (n = k.val → (s.crane k).st ≠ .unbound → exec .forceHold s = .next (owing .done
      [event .csv .craneHold .context k.val (s.crane k).tid.toNat 2 (s.crane k).miss]
      (withCrane k { s.crane k with st := .hold, holdCause := some .forced, good := 0, ready := false } s)))

/-- R75: RELEASE_HOLD with its crane job on. That its status write waits until CRANE_RELEASED is taken (log 10) and the code
of an absent hold cause (log 28) are the model's choices. -/
def Obligations.ReleaseHoldNeedsReady : Prop :=
  ∀ (s : State) (k : Fin 32), Takes .releaseHold s → s.ccu.cfg.craneEn = true →
    let n := rdLe s.nextRecord 8 1
    let c := s.crane k
    (32 ≤ n → exec .releaseHold s = .next (completed .badArgument s)) ∧
    (n = k.val → c.st ≠ .hold → exec .releaseHold s = .next (completed .wrongState s)) ∧
    (n = k.val → c.st = .hold → c.ready = false → exec .releaseHold s = .next (completed .notReady s)) ∧
    (n = k.val → c.st = .hold → c.ready = true → exec .releaseHold s = .next (owing .done
      [event .csv .craneReleased .context k.val c.tid.toNat (holdCode c.holdCause) c.lost]
      (withCrane k { c with
        st := .live, miss := 0, good := 0, ready := false, holdCause := none,
        countdown := some (s.tbs.runClock + c.deadline) } s)))

/-- R121, R122, R123: ADD_REEFER with its reefer job on makes a record in the lowest FREE way of the tag's set, raises
REEFER_NEW and triggers a digest, which is written where the digest ring has a free slot (R125, R187, R189), else owed. That
the status write waits until REEFER_NEW is taken is the model's choice (log 10). -/
def Obligations.AddReeferProvisionsARecord : Prop :=
  ∀ (s : State) (i : Fin 2048), Takes .addReefer s → s.ccu.cfg.reeferEn = true →
    let tag := BitVec.ofNat 32 (rdLe s.nextRecord 8 4)
    let p := rdLe s.nextRecord 12 1
    let gw := BitVec.ofNat 16 (rdLe s.nextRecord 14 2)
    let profile : Fin 8 := if p < 8 then Fin.ofNat 8 p else Fin.ofNat 8 s.ccu.cfg.defaultProfile
    (tag = 0 ∨ (8 ≤ p ∧ p ≠ 255) → exec .addReefer s = .next (completed .badArgument s)) ∧
    (tag ≠ 0 → p < 8 ∨ p = 255 → s.findReefer tag ≠ none → exec .addReefer s = .next (completed .exists' s)) ∧
    (tag ≠ 0 → p < 8 ∨ p = 255 → s.findReefer tag = none → s.freeWay tag = none →
      exec .addReefer s = .next (completed .full s)) ∧
    (tag ≠ 0 → p < 8 ∨ p = 255 → s.findReefer tag = none → s.freeWay tag = some i →
      1024 ≤ (s.rpw.dgProd - s.rpw.dgCons).toNat →
      exec .addReefer s = .next (owing .done [event .rfm .reeferNew .tag tag.toNat profile.val gw.toNat 2]
        (withReefer i { Reefer.reset with
            used := true, tag := tag, profile := profile, gateway := gw, lastReport := s.tbs.runClock,
            pending := true, triggers := 1 }
          { s with rfm := { s.rfm with pendingCount := s.rfm.pendingCount + 1 } }))) ∧
    (tag ≠ 0 → p < 8 ∨ p = 255 → s.findReefer tag = none → s.freeWay tag = some i → DigestFits s → Ready 2 s →
      let made : Reefer := { Reefer.reset with
        used := true, tag := tag, profile := profile, gateway := gw, lastReport := s.tbs.runClock }
      exec .addReefer s = .next (owing .done [event .rfm .reeferNew .tag tag.toNat profile.val gw.toNat 2]
        (digestWritten made 1 (withReefer i made s))))

/-- R119, R122, R123: CLEAR_DOSE with its reefer job on clears the account of a record and triggers a digest: counted on a
record that owes one, else written where the digest ring has a free slot (R125, R187, R189), else owed. -/
def Obligations.ClearDoseClearsTheAccount : Prop :=
  ∀ (s : State) (i : Fin 2048), Takes .clearDose s → s.ccu.cfg.reeferEn = true →
    let tag := BitVec.ofNat 32 (rdLe s.nextRecord 8 4)
    let cleared : Reefer := { s.reefer i with dose := 0, residue := 0, unobserved := 0, cond := .normal }
    (tag = 0 → exec .clearDose s = .next (completed .badArgument s)) ∧
    (tag ≠ 0 → s.findReefer tag = none → exec .clearDose s = .next (completed .notFound s)) ∧
    (tag ≠ 0 → s.findReefer tag = some i → (s.reefer i).pending = true →
      exec .clearDose s = .next (completed .done
        (withReefer i { cleared with triggers := min ((s.reefer i).triggers + 1) 255 } s))) ∧
    (tag ≠ 0 → s.findReefer tag = some i → (s.reefer i).pending = false → ¬DigestFits s →
      exec .clearDose s = .next (completed .done
        (withReefer i { cleared with pending := true, triggers := 1 }
          { s with rfm := { s.rfm with pendingCount := s.rfm.pendingCount + 1 } }))) ∧
    (tag ≠ 0 → s.findReefer tag = some i → (s.reefer i).pending = false → DigestFits s → Ready 3 s →
      exec .clearDose s = .next (completed .done (digestWritten cleared 1 (withReefer i cleared s))))

/-- R118, R120: RETIRE_REEFER with its reefer job on frees a record; its retirement digest, marked so and with its trigger
count one higher, is written where the digest ring has a free slot (R125, R187, R189), and lost where it is full. The third
detail of REEFER_RETIRED is a free value (log 27); that the status write waits until REEFER_RETIRED is taken is the model's
choice (log 10). A FREE record holds nothing (R103); how its fields stand is the model's choice (log 30). -/
def Obligations.RetireReeferFreesTheRecord : Prop :=
  ∀ (s : State) (i : Fin 2048), Takes .retireReefer s → s.ccu.cfg.reeferEn = true →
    let tag := BitVec.ofNat 32 (rdLe s.nextRecord 8 4)
    (tag = 0 → exec .retireReefer s = .next (completed .badArgument s)) ∧
    (tag ≠ 0 → s.findReefer tag = none → exec .retireReefer s = .next (completed .notFound s)) ∧
    (tag ≠ 0 → s.findReefer tag = some i →
      let r := s.reefer i
      let freed : State := { withReefer i .reset s with rfm := { (withReefer i .reset s).rfm with
        pendingCount := if r.pending then s.rfm.pendingCount - 1 else s.rfm.pendingCount
        draining := if r.pending then s.rfm.draining && decide (s.rfm.pendingCount - 1 ≠ 0) else s.rfm.draining } }
      let retires (u : State) : Prop := ∃ q, exec .retireReefer s = .next (owing .done [q] u) ∧ q.block = .rfm ∧
        q.kind = .reeferRetired ∧ q.subjKind = .tag ∧ q.subject = r.tag ∧ q.d0 = 2 ∧ q.d1 = BitVec.ofNat 64 r.dose
      (¬DigestFits s → retires freed) ∧
      (DigestFits s → Ready 2 s → retires (digestWritten r (min (r.triggers + 1) 255) freed true)))

/-- R142: RESET_BIN with its coverage job on clears every cell of the bin, its hole flag and its preferred cell, and no
other bin. That its events are marked as the command's (log 10), and 255 for the absent preferred cell (log 28), are the
model's choices. -/
def Obligations.ResetBinClearsTheRow : Prop :=
  ∀ (s : State) (b : Fin 64), Takes .resetBin s → s.ccu.cfg.coverageEn = true →
    let n := rdLe s.nextRecord 8 1
    (s.ccu.cfg.binCount ≤ n → exec .resetBin s = .next (completed .badArgument s)) ∧
    (n = b.val → n < s.ccu.cfg.binCount →
      ∃ t, exec .resetBin s = .next t ∧ SameBut true false false false false true false false true s t ∧
        (∀ d, d ≠ b → t.bin d = s.bin d) ∧ t.bin b = { cells := Vector.replicate 16 .reset, hole := false, pref := none } ∧
        t.cvm.folded = s.cvm.folded ∧ t.cvm.discarded = s.cvm.discarded ∧ t.rpw.result = some .done ∧
        t.rpw.events = s.rpw.events ++
          (if (s.bin b).hole then [byCommand (event .cvm .binHoleCleared .bin b.val 0 0 4)] else []) ++
          (if (s.bin b).pref = none then []
            else [byCommand (event .cvm .preferredChanged .bin b.val (optFin (s.bin b).pref) 255 4)]))

/-- R143: SNAPSHOT_COVERAGE with its coverage job on opens a snapshot: the generation rises and is written, and the command
stays in progress. -/
def Obligations.SnapshotOpens : Prop :=
  ∀ s : State, Takes .snapshotCoverage s → s.ccu.cfg.coverageEn = true →
    exec .snapshotCoverage s = .next
      (injected (areaEntry .cvm 0x8020 (beatsOf (leBytes 4 (s.cvm.gen + 1).toNat)) false s)
        { s with
          cvm := { s.cvm with snapRunning := true, nextBin := 0, copied := 0, gen := s.cvm.gen + 1 }
          rpw := { s.rpw with exec := .executing, result := none } })

/-- R144, R145: a row of a bin below 63 joins the injection queue and is counted; the row of bin 63 also ends the snapshot
DONE, with the fields, the ordered closing write and the command's status write behind it. -/
def Obligations.SnapshotRowIsCopied : Prop :=
  ∀ (s : State) (b : Fin 64), s.cvm.snapRunning = true → s.cvm.nextBin = b.val →
    let row := areaEntry .cvm (0x20000 + 256 * b.val) (beatsOf (s.rowBytes b)) false s
    (b.val < 63 → Ready 1 s → exec .snapshotRow s = .next (injected row
      { s with cvm := { s.cvm with copied := s.cvm.copied + 1, nextBin := s.cvm.nextBin + 1 } })) ∧
    (b.val = 63 → Ready 4 s → s.rpw.exec = .executing → (∀ q ∈ s.rpw.events, q.ofCommand = false) →
      ∃ t, exec .snapshotRow s = .next t ∧ SameBut true false false false false true false false true s t ∧
        t.cvm = { s.cvm with
          snapRunning := false, copied := s.cvm.copied + 1, nextBin := 64, outcome := .done, gen := s.cvm.gen + 1 } ∧
        t.rpw = { s.rpw with exec := .writingBack, result := some .done } ∧
        t.lif = { s.lif with injQueue := s.lif.injQueue ++
          [row, areaEntry .cvm 0x8020 [packBeat 4 (leBytes 1 1 ++ leBytes 1 (s.cvm.copied + 1))] false s,
            areaEntry .cvm 0x8020 (beatsOf (leBytes 4 (s.cvm.gen + 1).toNat)) true s, statusEntry .done s] })

/-! ## The sweep -/

/-- R157, R158: a period expiry reloads the countdown and delivers its trigger; an edge on SWEEP_IN delivers one under PIN
alone. The trigger is taken by part state and sweep state. That the countdown is reloaded from the run clock of the step that
takes the expiry is the model's choice (log 26). -/
def Obligations.TriggersAreTakenByState : Prop :=
  ∀ (s : State) (e : Nat), s.pins.inReset = false → s.lif.injWaiting = [] →
    let n := min (s.tbs.overruns + 1) 4294967295
    let taken (code : Nat) (u : State) : State :=
      match s.ccu.part with
      | .dormant | .initialising => u
      | .running =>
        if s.tbs.sweeping then
          raised [event .tbs .sweepOverrun .part n code (phaseCode s.tbs.phase) s.tbs.cursor]
            { u with tbs := { u.tbs with restart := true, overruns := n } }
        else { u with tbs := sweepBegun u }
      | .suspending | .suspended => { u with tbs := { u.tbs with restart := true } }
    (s.tbs.countdown = some e → e ≤ s.tbs.runClock →
      exec .sweepPeriodExpiry s = .next (taken 1 { s with tbs := { s.tbs with
        countdown := some (s.tbs.runClock + s.tbs.latchedPeriod * 1000000) } })) ∧
    (s.tbs.latchedSel = .pin → exec .sweepInEdge s = .next (taken 2 s)) ∧
    (s.tbs.latchedSel ≠ .pin → exec .sweepInEdge s = .next s)

/-- R48, R58, R160: a directory visit frees a LEARNED entry past LEARN_AGE, with TERMINAL_AGED, and leaves any other entry,
from which the cursor moves, after entry 255 to the reefer phase. The visit that raised TERMINAL_AGED ends, and the cursor
moves, once the report writer has taken it and waits for no place: that this is where it ends is the model's reading (log 37).
That the kind of a freed entry is CRANE, its id 0 and its last seen 0 is the model's choice (log 30). -/
def Obligations.DirectoryVisitAgesLearnedEntries : Prop :=
  ∀ (s : State) (i : Fin 256), s.tbs.cursor = i.val →
    let e := s.entry i
    let silence := s.tbs.runClock - e.lastSeen
    let next : SweepPhase × Nat := if i.val = 255 then (.reefer, s.tbs.rangeStart) else (.directory, i.val + 1)
    (Sweeping .directory s →
      (e.st ≠ .learned ∨ silence ≤ s.ccu.cfg.learnAge * 60000000 →
        exec .directoryAgingVisit s = .next (cursorAt next.1 next.2 s)) ∧
      (e.st = .learned → s.ccu.cfg.learnAge * 60000000 < silence →
        let freed := visitRaised [event .tdr .terminalAged .terminal e.id.toNat i.val (termKindCode e.kind)
          ((min (silence / 1000000) 4294967295 : Nat) : Int)] (withEntry i .reset s)
        (e.lastCell = none → exec .directoryAgingVisit s = .next freed) ∧
        (∀ c, e.lastCell = some c → exec .directoryAgingVisit s = .next
          { freed with tdr := { freed.tdr with attach := s.tdr.attach.set c (s.tdr.attach[c] - 1) } }))) ∧
    (UnderWay .directory s → VisitEnds .directoryAgingVisit next.1 next.2 s)

/-- R112, R114, R115, R116, R118, R123, R160, R161: a reefer visit passes over a FREE record, over every record while
REEFER_EN is 0, and over one that is neither beyond its missing limit nor due for a new condition. A REPORTING record beyond
its missing limit, never retired by age, goes MISSING with the reason of R116, and a record whose condition changes takes the
new one with its event; either, or both together, triggers one digest: counted on a record that owes one, else written where
the digest ring has a free slot (R125, R187, R189), else owed. A record silent for longer than RETIRE_AGE is retired, its
digest written or lost; the third detail of REEFER_RETIRED is a free value (log 27). A visit that raised an event ends, and
the cursor moves, once the report writer has taken it and waits for no place: that this is where it ends is the model's
reading (log 37). How a FREE record's fields stand is the model's choice (log 30). -/
def Obligations.ReeferVisitFindsTheSilent : Prop :=
  ∀ (s : State) (i : Fin 2048), s.tbs.cursor = i.val →
    let r := s.reefer i
    let p := s.ccu.cfg.profiles[r.profile]
    let limit := p.interval * p.missFactor * 1000000
    let silence := s.tbs.runClock - r.lastReport
    let silent : Prop := ∀ g, s.findTerm r.gateway = some g → limit < s.tbs.runClock - (s.entry g).lastSeen
    let poor : Prop := s.ccu.cfg.coverageEn = true ∧ ∃ (g : Fin 256) (b : Fin 64) (c : Fin 16),
      s.findTerm r.gateway = some g ∧ (s.entry g).homeBin = some b ∧ (s.entry g).lastCell = some c ∧
        b.val < s.ccu.cfg.binCount ∧ c.val < s.ccu.cfg.cellCount ∧
        ((s.bin b).cells[c].st = .weak ∨ (s.bin b).hole = true ∨
          ∃ m, (s.entry g).lastMargin = some m ∧ m < 16 * s.ccu.cfg.weakDb)
    let next : SweepPhase × Nat := if i.val = s.tbs.rangeEnd then (.grid, 0) else (.reefer, (i.val + 1) % 2048)
    let old : Prop := s.ccu.cfg.retireAge ≠ 0 ∧ s.ccu.cfg.retireAge * 3600000000 < silence
    let cond : Condition := if r.cond = .breach ∨ p.breachDose ≤ r.dose then .breach
      else if p.warnDose ≤ r.dose then .warn else .normal
    let condition : List EventReq := if cond = r.cond ∨ cond = .normal then []
      else if cond = .breach then [event .rfm .reeferBreach .tag r.tag.toNat r.dose p.breachDose r.profile.val]
      else [event .rfm .reeferWarn .tag r.tag.toNat r.dose p.warnDose r.profile.val]
    (Sweeping .reefer s → s.rmn.handling = none →
      (s.ccu.cfg.reeferEn = false ∨ r.used = false ∨
          ¬old ∧ (r.missing = true ∨ silence ≤ limit) ∧ cond = r.cond →
        exec .reeferVisit s = .next (cursorAt next.1 next.2 s)) ∧
      (s.ccu.cfg.reeferEn = true → r.used = true → ¬old →
        let acts (r' : Reefer) (events : List EventReq) : Prop :=
          let gone : Reefer := { r' with cond := cond }
          let leaves (u : State) : Prop := exec .reeferVisit s = .next
            (if events ++ condition = [] then cursorAt next.1 next.2 u else visitRaised (events ++ condition) u)
          (r.pending = true → leaves (withReefer i { gone with triggers := min (r.triggers + 1) 255 } s)) ∧
          (r.pending = false → DigestFits s → Ready 2 s → leaves (digestWritten gone 1 (withReefer i gone s))) ∧
          (r.pending = false → ¬DigestFits s → leaves (withReefer i { gone with pending := true, triggers := 1 }
            { s with rfm := { s.rfm with pendingCount := s.rfm.pendingCount + 1 } }))
        let goes (why : MissReason) (code : Nat) : Prop :=
          acts { r with missing := true, reason := some why } [event .rfm .reeferMissing .tag r.tag.toNat code
            ((silence / 1000000 : Nat) : Int) r.gateway.toNat]
        (r.missing = false → limit < silence →
          (silent → goes .gatewaySilent 1) ∧ (¬silent → poor → goes .coverage 2) ∧
            (¬silent → ¬poor → goes .reeferSilent 3)) ∧
          (r.missing = true ∨ silence ≤ limit → cond ≠ r.cond → acts r [])) ∧
      (s.ccu.cfg.reeferEn = true → r.used = true → old →
        let freed : State := { withReefer i .reset s with rfm := { (withReefer i .reset s).rfm with
          pendingCount := if r.pending then s.rfm.pendingCount - 1 else s.rfm.pendingCount
          draining := if r.pending then s.rfm.draining && decide (s.rfm.pendingCount - 1 ≠ 0) else s.rfm.draining } }
        let retires (u : State) : Prop := ∃ q, exec .reeferVisit s = .next (visitRaised [q] u) ∧ q.block = .rfm ∧
          q.kind = .reeferRetired ∧ q.subjKind = .tag ∧ q.subject = r.tag ∧ q.d0 = 1 ∧ q.d1 = BitVec.ofNat 64 r.dose
        (¬DigestFits s → retires freed) ∧
        (DigestFits s → Ready 2 s → retires (digestWritten r (min (r.triggers + 1) 255) freed true)))) ∧
    (UnderWay .reefer s → VisitEnds .reeferVisit next.1 next.2 s)

/-- R136, R137, R138, R140, R151, R160: a grid visit resets exactly the cells that hold samples and have not been heard within
AGE_LIMIT, and then evaluates the bin: its hole flag, its preferred cell, and their events with cause AGING. Where it resets
none, and over every bin while COVERAGE_EN is 0, it does nothing. No other bin changes. Where it raised nothing the cursor
moves, after bin 63 to the refresh; else the visit ends, and the cursor moves, once its events are taken and the report writer
waits for no place: that this is where it ends is the model's reading (log 37). 255 for an absent cell is the model's choice
(log 28). -/
def Obligations.GridVisitAgesCells : Prop :=
  ∀ (s : State) (b : Fin 64), s.tbs.cursor = b.val →
    let stale (c : Cell) : Prop := 0 < c.n ∧ s.ccu.cfg.ageLimit * 60000000 < s.tbs.runClock - c.last
    let next : SweepPhase × Nat := if b.val = 63 then (.refresh, 0) else (.grid, b.val + 1)
    (Sweeping .grid s →
      (s.ccu.cfg.coverageEn = false ∨ (∀ i : Fin 16, ¬stale (s.bin b).cells[i]) →
        exec .gridAgingVisit s = .next (cursorAt next.1 next.2 s)) ∧
      (s.ccu.cfg.coverageEn = true → (∃ i : Fin 16, stale (s.bin b).cells[i]) →
        ∃ t events, exec .gridAgingVisit s = .next t ∧ SameBut false false false false false true true false true s t ∧
          t.cvm = { s.cvm with bins := t.cvm.bins } ∧ (∀ d, d ≠ b → t.bin d = s.bin d) ∧
          (∀ i : Fin 16, stale (s.bin b).cells[i] →
            (t.bin b).cells[i] = { m := 0, n := 0, last := 0, st := .unknown }) ∧
          (∀ i : Fin 16, ¬stale (s.bin b).cells[i] → (t.bin b).cells[i] = (s.bin b).cells[i]) ∧
          Evaluated s.ccu.cfg s.tdr.attach b 3 (s.bin b) (t.bin b) events ∧
          t.rpw = { s.rpw with events := s.rpw.events ++ events.map byVisit } ∧
          t.tbs = if events = [] then (cursorAt next.1 next.2 s).tbs else { s.tbs with visiting := true })) ∧
    (UnderWay .grid s → VisitEnds .gridAgingVisit next.1 next.2 s)

/-- R87, R162, R164: a section of the refresh joins the injection queue and the cursor moves; the crane section, the summaries
of the 32 contexts, is eight entries of 256 bytes (log 61). With the sweep section the sweep ends, select and period as latched
already: completed + 1, and IDLE, or, the restart flag set, a new sweep begins. R177: the requesting block is the one that
owns the content: TDR, CSV, RFM, CVM, and TBS for the sweep section (log 47). -/
def Obligations.RefreshSectionJoins : Prop :=
  ∀ s : State, Sweeping .refresh s → Ready 1 s →
    let entry (b : Block) (off : Nat) (bytes : List Byte) : InjEntry := areaEntry b (0x8000 + off) (beatsOf bytes) false s
    let next (u : State) : State := cursorAt .refresh (s.tbs.cursor + 1) u
    let part (n : Nat) : InjEntry := entry .csv (0x400 + 256 * n) (((craneSection s).drop (256 * n)).take 256)
    (s.tbs.cursor = 0 → exec .refreshSection s = .next (next (injected (entry .tdr 0x060 (directorySection s)) s))) ∧
    (s.tbs.cursor = 1 → Ready 8 s → exec .refreshSection s = .next (next
      { s with lif := { s.lif with injQueue := s.lif.injQueue ++ (List.range 8).map part } })) ∧
    (s.tbs.cursor = 2 → exec .refreshSection s = .next (next (injected (entry .rfm 0x090 (reeferSection s)) s))) ∧
    (s.tbs.cursor = 3 → exec .refreshSection s = .next (next (injected (entry .cvm 0x0A0 (coverageSection s)) s))) ∧
    (s.tbs.cursor = 4 → s.tbs.latchedSel = s.ccu.cfg.sweepSel →
      s.tbs.latchedPeriod = s.ccu.cfg.sweepPeriod → (s.ccu.cfg.sweepSel ≠ .period → s.tbs.countdown = none) →
      let ends (t : Tbs) : Prop := exec .refreshSection s = .next (injected
        (entry .tbs 0x040 (sweepSection (s.tbs.completed + 1) s)) { s with tbs := { t with completed := s.tbs.completed + 1 } })
      (s.tbs.restart = false → ends { s.tbs with sweeping := false }) ∧ (s.tbs.restart = true → ends (sweepBegun s)))

/-! ## Digests and events -/

/-- R124, R187, R189: the drain passes a record that owes nothing; it stops at one that owes a digest when no slot is free;
with a slot it writes the digest with its trigger count, Dp rises and is written with its section, and the drain goes on while
another record owes one. -/
def Obligations.DrainWritesOwedDigests : Prop :=
  ∀ s : State, s.working = true → s.rfm.draining = true → s.rmn.handling = none →
    let i := s.rfm.cursor
    let r := s.reefer i
    (Ready 0 s → r.used = false ∨ r.pending = false →
      exec .digestDrainStep s = .next { s with rfm := { s.rfm with cursor := i + 1 } }) ∧
    (Ready 0 s → r.used = true → r.pending = true → 1024 ≤ (s.rpw.dgProd - s.rpw.dgCons).toNat →
      exec .digestDrainStep s = .next { s with rfm := { s.rfm with draining := false } }) ∧
    (Ready 2 s → r.used = true → r.pending = true → DigestFits s →
      ∃ t, exec .digestDrainStep s = .next t ∧ SameBut true false false false true false false false true s t ∧
        t.reefer i = { r with pending := false, triggers := 0 } ∧ (∀ j, j ≠ i → t.reefer j = s.reefer j) ∧
        t.rfm.pendingCount = s.rfm.pendingCount - 1 ∧ t.rfm.cursor = i + 1 ∧
        (t.rfm.draining = true ↔ s.rfm.pendingCount - 1 ≠ 0) ∧
        t.rpw = (dpRaised s).rpw ∧
        t.lif = { s.lif with injQueue := s.lif.injQueue ++
          [digestEntry r r.triggers s, indicesEntry false (dpRaised s)] })

/-- R183, R184, R185: what becomes of the oldest request of a block: before the indices are set it joins the early list, or is
counted once the list holds 16; after it, it is written, or lost, or follows an EVENTS_LOST record, by the free slots and the
lost count. R180, R181: where it was the last that the command in progress raised and the command has its status, the status
write follows, and the executor is WRITING_BACK; that the write waits for it is the model's choice (log 10). That the first
and last lost kinds are cleared with the count (log 29), that the section is written a second time after the record behind
EVENTS_LOST (log 41), that EVENTS_LOST carries the site time at which the next event is taken (log 50) and that the section is
written for an event lost at a saturated lost count (log 60) are the model's choices. -/
def Obligations.EventIsWrittenOrCounted : Prop :=
  ∀ (s : State) (q : EventReq) (before after : List EventReq), Ready 5 s → s.rpw.events = before ++ q :: after →
    (∀ p ∈ before, p.block ≠ q.block) →
    let free := 1024 - (s.rpw.evProd - s.rpw.evCons).toNat
    let u : State := { s with rpw := { s.rpw with events := before ++ after, serving := some q.block } }
    let slot (E : Word) (bytes : List Byte) : InjEntry :=
      { block := .rpw, addr := BitVec.ofNat 32 (s.areaBase + (0x10000 + 32 * (E.toNat % 1024))), isRead := false,
        beats := beatsOf bytes, ordered := false, eventMark := true, tag := .plain }
    let lostRec := lostBytes s.rpw.lost s.rpw.firstLost s.rpw.lastLost s.site
    let E := s.rpw.evProd
    let leaves (v : State) : Prop :=
      (∀ st, q.ofCommand = true → s.rpw.exec = .executing → s.rpw.result = some st →
        (∀ p ∈ before ++ after, p.ofCommand = false) → exec (.eventTake q.block) s = .next (injected (statusEntry st s)
          { v with rpw := { v.rpw with exec := .writingBack } })) ∧
      (q.ofCommand = false ∨ s.rpw.exec ≠ .executing ∨ s.rpw.result = none ∨ (∃ p ∈ before ++ after, p.ofCommand = true) →
        exec (.eventTake q.block) s = .next v)
    (s.rpw.indicesSet = false → s.rpw.early.length < 16 →
      leaves { u with rpw := { u.rpw with early := s.rpw.early ++ [(q, s.site)] } }) ∧
    (s.rpw.indicesSet = false → 16 ≤ s.rpw.early.length →
      leaves { u with rpw := { u.rpw with
        earlyLoss := min (s.rpw.earlyLoss + 1) 4294967295
        earlyFirst := if s.rpw.earlyLoss = 0 then some q.kind else s.rpw.earlyFirst
        earlyLast := some q.kind } }) ∧
    (s.rpw.indicesSet = true → s.rpw.lost = 0 → 1 ≤ free →
      let v : State := { u with rpw := { u.rpw with evProd := E + 1 } }
      leaves (injected (indicesEntry true v) (injected (slot E (eventBytes q s.site)) v))) ∧
    (s.rpw.indicesSet = true → 0 < s.rpw.lost → 2 ≤ free →
      let v : State := { u with rpw := { u.rpw with evProd := E + 1, lost := 0, firstLost := none, lastLost := none } }
      let w : State := { v with rpw := { v.rpw with evProd := E + 1 + 1 } }
      leaves (injected (indicesEntry true w) (injected (slot (E + 1) (eventBytes q s.site))
        (injected (indicesEntry true v) (injected (slot E lostRec) w))))) ∧
    (s.rpw.indicesSet = true → 0 < s.rpw.lost → free = 1 →
      let v : State := { u with rpw := { u.rpw with
        evProd := E + 1, lost := 1, firstLost := some q.kind, lastLost := some q.kind } }
      leaves (injected (indicesEntry true v) (injected (slot E lostRec) v))) ∧
    (s.rpw.indicesSet = true → free = 0 →
      let v : State := { u with rpw := { u.rpw with
        lost := min (s.rpw.lost + 1) 4294967295
        firstLost := if s.rpw.lost = 0 then some q.kind else s.rpw.firstLost
        lastLost := some q.kind } }
      leaves (injected (indicesEntry true v) v))

/-! ## Part states -/

/-- R171, R185: area initialisation takes the command indices, the digest indices and the event consumer from the words read,
and empties the early list; no kept value waits. That Ec and Dc take the words read is the model's choice (log 25). R16, R172,
R175, R177: with no early event and an empty injection queue the status page joins as sixteen entries (log 61), the first of them
ordered (log 23) and carrying the indices, and with the last the part is RUNNING, or, RUN off, SUSPENDED, cause INIT_DONE:
STATE_CHANGED is raised and the part record waits for a place; RUNNING is shown with no ring, no bound crane and no restart
flag that asks for more. -/
def Obligations.AreaInitialisationSetsTheIndices : Prop :=
  ∀ (s : State) (p e d : Word), s.pins.inReset = false → s.lif.injWaiting = [] → s.ccu.part = .initialising →
    s.rpw.indicesSet = false → s.ccu.initReads[0] = some p → s.ccu.initReads[1] = some e →
    s.ccu.initReads[2] = some d → (∀ k : Fin 3, s.ccu.initKept[k] = none) →
    (∃ t, exec .areaInitialisation s = .next t ∧ t.rpw.indicesSet = true ∧ t.rpw.done = p ∧ t.rpw.prod = p ∧
      t.rpw.evCons = e ∧ t.rpw.dgProd = d ∧ t.rpw.dgCons = d ∧ t.rpw.early = [] ∧ t.rpw.earlyLoss = 0 ∧
      t.rpw.lost = s.rpw.lost ∧ t.rpw.exec = s.rpw.exec ∧
      (s.rpw.early = [] → s.rpw.earlyLoss = 0 → t.rpw.evProd = e) ∧ t.tdr = s.tdr ∧ t.rfm.recs = s.rfm.recs ∧
      t.cvm = s.cvm) ∧
    (s.lif.injQueue = [] → s.rpw.early = [] → s.rpw.earlyLoss = 0 →
      let u : State := { s with rpw := { s.rpw with
        indicesSet := true, prod := p, done := p, evProd := e, evCons := e, dgProd := d, dgCons := d,
        earlyFirst := none, earlyLast := none } }
      let page := statusPage u
      let bytes (n : Nat) : List Beat := beatsOf ((page.drop (256 * n)).take 256)
      let first : InjEntry := { areaEntry .ccu 0x8000 (bytes 0) true s with tag := .indices e d }
      let later (n : Nat) : InjEntry := areaEntry .ccu (0x8000 + 256 * (n + 1)) (bytes (n + 1)) false s
      let ends (part : PartState) : Prop := exec .areaInitialisation s = .next { u with
        lif := { s.lif with
          injQueue := first :: (List.range 15).map later, injWaiting := [(.ccu, .partRecord part s.site)] }
        ccu := { s.ccu with part := part, lastChange := s.site, initKept := Vector.replicate 3 none }
        rpw := { u.rpw with
          events := s.rpw.events ++ [event .ccu .stateChanged .part (partCode part) 1 s.ccu.cfg.restartGen 3] } }
      page.length = 4096 ∧ (s.ccu.cfg.run = false → ends .suspended) ∧
      (s.ccu.cfg.run = true → (∀ r, (s.ring r).state = .disabled ∧ (s.ring r).desc.enable = false) →
        (∀ k, (s.crane k).st = .unbound) → s.rfm.startKept = false → (s.tbs.restart = false ∨ s.tbs.sweeping = true) →
        ends .running))

/-- R29, R99, R173, R174, R175: with every slot EMPTY, the dispatch queue empty, no command in progress and no commit in
progress (the model's choice, log 17), SUSPENDING ends: with RUN off the part is SUSPENDED, no slot map holds an entry, no
buffer is FILLING, no tracker and no countdown runs, STATE_CHANGED is raised and the part record joins, ordered. -/
def Obligations.SuspendingDrains : Prop :=
  ∀ s : State, Ready 1 s → s.ccu.part = .suspending → (∀ r : Fin 16, (s.slot r).status = .empty) →
    s.rmn.dispatch = [] → s.rpw.exec = .idle → (∀ r : Fin 16, (s.ring r).commit = none) → s.ccu.cfg.run = false →
    ∃ t, exec .suspendDrained s = .next t ∧ SameBut true true false true false false false true true s t ∧
      t.ccu = { s.ccu with part := .suspended, lastChange := s.site } ∧
      (∀ r : Fin 16, (t.ring r).slotMap = [] ∧ (t.ring r).state = (s.ring r).state ∧
        (t.ring r).prod = (s.ring r).prod ∧ (t.ring r).cons = (s.ring r).cons ∧ (t.ring r).desc = (s.ring r).desc) ∧
      (∀ b r sl i, (t.buffer b).st ≠ .filling r sl i) ∧ (∀ k, (t.tracker k).st = .free) ∧
      (∀ k, t.crane k = { s.crane k with countdown := none }) ∧
      (∀ r : Fin 16, t.lif.prodShadow[r] = [] ∧ t.lif.consShadow[r] = []) ∧
      t.rpw = { s.rpw with
        events := s.rpw.events ++ [event .ccu .stateChanged .part 4 3 s.ccu.cfg.restartGen 4] } ∧
      t.lif.injQueue = s.lif.injQueue ++ [partEntry 4 s.ccu.cfg.restartGen s.site s]

/-! ## Arithmetic -/

/-- R93: a header whose sixteen words sum to 0xFFFF and whose first word is not 0 still does after the rewrite of its beat 1.
R90, R91: a full beat 0 of a command frame to a bound crane opens the FREE tracker with the lowest number, which latches what
the crane's context and the grid say; one of another kind is PASSED; with no tracker FREE it is SKIPPED. R92: the full beat 1
of an OPEN tracker is forwarded with the fields that the descriptor and the latches replace: motion grant 0 toward a crane
latched in WATCH or HOLD. R94, R95: a partial beat 0 or 1, and one of another initiator, makes the record SKIPPED with its
cause unless it is SKIPPED already or PASSED before a beat 1; a full beat 1 is forwarded as it came where the record is PASSED
or SKIPPED, makes an empty one SKIPPED with cause ORDER, and is rewritten again by a DONE tracker. -/
def Obligations.RewriteKeepsTheHeaderCheck : Prop :=
  (∀ (d : RingDesc) (k : Tracker) (site : Nat) (b0 b1 : Beat), beatWord b0 0 ≠ 0 →
    beatSum (beatSum 0 b0) b1 = 0xFFFF → beatSum (beatSum 0 b0) (rewriteBeat d k site b1) = 0xFFFF) ∧
  (∀ (r x : Fin 16) (sl : Nat) (addr : Word) (b : Beat) (s : State), Rewrites r x sl 0 addr b s →
    mapGet (s.ring r).slotMap sl = none →
    let g := s.ring r
    let i := indexOf g sl
    let f : Facts :=
      { tid := BitVec.ofNat 16 (beatWord b 1), seq := BitVec.ofNat 16 (beatWord b 3), len := beatWord b 4 }
    let recorded (e : SlotEntry) (u : State) : State :=
      withRing r { g with slotMap := mapPut sl e g.slotMap } (forwarded (plainWrite x addr [b]) u)
    let command : Prop := (beatByte b 0).toNat = 0x5A ∧
      (s.ccu.cfg.version = 0 ∨ s.ccu.cfg.version = (beatByte b 1).toNat) ∧ (beatByte b 4).toNat = 2 ∧
      s.ccu.cfg.kindMask.testBit 1 = true
    (¬command ∨ s.findTerm f.tid = none ∨ (∃ n, s.findTerm f.tid = some n ∧ (s.entry n).ctx = none) →
      exec (.ulinkWrite x addr [b]) s = .next (recorded (.passed i) s)) ∧
    (∀ n k, command → s.findTerm f.tid = some n → (s.entry n).ctx = some k → (∀ t, (s.tracker t).st ≠ .free) →
      exec (.ulinkWrite x addr [b]) s = .next (recorded (.skipped .noTracker (some f) i) s)) ∧
    (∀ n k (t : Fin 8), command → s.findTerm f.tid = some n → (s.entry n).ctx = some k → (s.tracker t).st = .free →
      (∀ j, j < t → (s.tracker j).st ≠ .free) →
      let latched (cell : Option (Fin 16)) (hole : Bool) : Prop :=
        let opened : Tracker :=
          { st := .opened, ring := r, slot := sl, index := i, ctx := k, facts := f, state := (s.crane k).st,
            bin := (s.crane k).bin, cell := cell, hole := hole, stamp := none }
        exec (.ulinkWrite x addr [b]) s = .next (recorded (.tracked t i)
          { s with rmn := { s.rmn with trackers := s.rmn.trackers.set t opened } })
      (∀ c, (s.crane k).bin = some c → s.ccu.cfg.coverageEn = true → c.val < s.ccu.cfg.binCount →
        latched (s.bin c).pref (s.bin c).hole) ∧
      ((s.crane k).bin = none ∨ s.ccu.cfg.coverageEn = false ∨
        (∃ c, (s.crane k).bin = some c ∧ s.ccu.cfg.binCount ≤ c.val) → latched none false))) ∧
  (∀ (r x : Fin 16) (sl : Nat) (addr : Word) (b : Beat) (s : State) (t : Fin 8), Rewrites r x sl 16 addr b s →
    mapGet (s.ring r).slotMap sl = some (.tracked t (indexOf (s.ring r) sl)) →
    let k := s.tracker t
    let d := (s.ring r).desc
    let b' := rewriteBeat d k s.site.toNat b
    exec (.ulinkWrite x addr [b]) s = .next (forwarded (plainWrite x addr [b'])
        { s with rmn := { s.rmn with trackers := s.rmn.trackers.set t { k with
          st := .done, stamp := if d.stamp then some s.tbs.runClock else k.stamp } } }) ∧
      b'.strobes = b.strobes ∧ beatWord b' 4 = beatWord b 4 ∧ beatWord b' 5 = beatWord b 5 ∧
      beatWord b' 6 = beatWord b 6 ∧
      (d.stamp = true → beatWord b' 0 + 65536 * beatWord b' 1 = s.site.toNat % 2 ^ 32) ∧
      (d.stamp = false → beatWord b' 0 = beatWord b 0 ∧ beatWord b' 1 = beatWord b 1) ∧
      (d.hold = true → k.state = .watch ∨ k.state = .hold → beatWord b' 2 = 0) ∧
      (d.hold = false ∨ k.state ≠ .watch ∧ k.state ≠ .hold → beatWord b' 2 = beatWord b 2) ∧
      (∀ c, d.steer = true → k.bin ≠ none → k.hole = false → k.cell = some c →
        beatWord b' 3 = beatWord b 3 / 256 * 256 + c.val) ∧
      (d.steer = false ∨ k.bin = none ∨ k.hole = true ∨ k.cell = none → beatWord b' 3 = beatWord b 3)) ∧
  (∀ (r x : Fin 16) (sl off : Nat) (addr : Word) (b : Beat) (s : State), HeaderBeat r x sl off addr b s →
    let g := s.ring r
    let i := indexOf g sl
    let leaves (e : SlotEntry) (u : State) : Prop := exec (.ulinkWrite x addr [b]) s = .next
      (withRing r { g with slotMap := mapPut sl e g.slotMap } (forwarded (plainWrite x addr [b]) u))
    let passes : Prop := exec (.ulinkWrite x addr [b]) s = .next (forwarded (plainWrite x addr [b]) s)
    (∀ w : SkipCause, off = 0 ∨ off = 16 → b.strobes ≠ 0 →
      (w = .foreign ∧ ¬Produces r x s ∨ w = .partialBeat ∧ Produces r x s ∧ b.strobes ≠ 0xFFFF) →
      (mapGet g.slotMap sl = none → leaves (.skipped w none i) s) ∧
      (∀ t, mapGet g.slotMap sl = some (.tracked t i) →
        leaves (.skipped w (some (s.tracker t).facts) i) (trackerFreed t s)) ∧
      (mapGet g.slotMap sl = some (.passed i) → off = 0 → leaves (.skipped w none i) s) ∧
      (mapGet g.slotMap sl = some (.passed i) → off = 16 → passes) ∧
      (∀ v f, mapGet g.slotMap sl = some (.skipped v f i) → passes)) ∧
    (off = 16 → Produces r x s → b.strobes = 0xFFFF →
      (mapGet g.slotMap sl = none → leaves (.skipped .order none i) s) ∧
      (mapGet g.slotMap sl = some (.passed i) ∨ (∃ v f, mapGet g.slotMap sl = some (.skipped v f i)) → passes)))

/-- R133: a fold moves m toward the sample without passing it, and m stays in −1024 … +1008. R130, R132, R133, R135: the
sample that a dispatched frame offers, the one pair of a RADIO_SURVEY frame or the header of an OTHER frame whose entry has a
home bin, is folded into its cell where it passes the tests, and otherwise counted discarded. R136, R137, R138, R151: a fold
is followed by the evaluation of its bin: hole flag, preferred cell, and their events with cause SAMPLE, behind what a
terminal that is not known raised (R50). 255 for an absent cell is the model's choice (log 28). -/
def Obligations.FoldMovesTowardTheSample : Prop :=
  (∀ (c : Cfg) (cell : Cell) (x : Int) (t : Nat), 1 ≤ c.kcfg → 0 < cell.n → -1024 ≤ cell.m → cell.m ≤ 1008 →
    -1024 ≤ x → x ≤ 1008 →
    let m := (foldCell c x t cell).m
    (cell.m ≤ x → cell.m ≤ m ∧ m ≤ x) ∧ (x ≤ cell.m → x ≤ m ∧ m ≤ cell.m) ∧ -1024 ≤ m ∧ m ≤ 1008) ∧
  (∀ (s : State) (e : DispatchEntry) (rest : List DispatchEntry) (bin cell : Nat) (margin : Int),
    Dispatches e rest s → s.ccu.cfg.coverageEn = true →
    let f := (s.buffer e.buf).bytes
    let c := s.ccu.cfg
    (frameKind f = 4 ∧ frameCount f = 1 ∧ bin = framePos f ∧ cell = pairCell f 0 ∧ margin = pairMargin f 0) ∨
      (5 ≤ frameKind f ∧ cell = frameCell f ∧ margin = frameMargin f ∧
        ∃ g h, s.findTerm (frameTid f) = some g ∧ (s.entry g).homeBin = some h ∧ bin = h.val) →
    let passes : Prop := bin < c.binCount ∧ cell ≠ 255 ∧ cell < c.cellCount ∧ margin ≠ -128
    let id := frameTid f
    ∃ t met, exec .dispatchFrame s = .next t ∧ SameBut false true true false false true false false true s t ∧
      t.rmn = frameReleased e rest s ∧ (∀ q ∈ met, q.kind = .terminalLearned ∨ q.kind = .directoryFull) ∧
      (id = 0 ∨ id = 0xFFFF ∨ s.findTerm id ≠ none → met = []) ∧
      (¬passes → t.cvm = { s.cvm with discarded := min (s.cvm.discarded + 1) 4294967295 } ∧ t.rpw = (raised met s).rpw) ∧
      (∀ (b : Fin 64) (i : Fin 16), passes → bin = b.val → cell = i.val →
        t.cvm = { s.cvm with bins := t.cvm.bins, folded := min (s.cvm.folded + 1) 4294967295 } ∧
          (∀ d, d ≠ b → t.bin d = s.bin d) ∧ Folded c s.tbs.runClock margin i (s.bin b) (t.bin b) ∧
          ∃ events, Evaluated c t.tdr.attach b 1 (s.bin b) (t.bin b) events ∧ t.rpw = (raised (met ++ events) s).rpw))

/-- R128: a gantry position is converted to a bin. -/
def Obligations.PositionGivesTheBin : Prop :=
  ∀ (c : Cfg) (p : Nat), 1 ≤ c.binWidth → c.binCount ≤ 64 →
    (p < c.origin → positionBin c p = none) ∧
    (c.origin ≤ p → c.binCount ≤ (p - c.origin) / c.binWidth → positionBin c p = none) ∧
    (∀ b : Fin 64, c.origin ≤ p → (p - c.origin) / c.binWidth = b.val → b.val < c.binCount → positionBin c p = some b)

/-- R190: when ATTN_N is asserted, and the level the pin is driven to; it is deasserted in reset and at the release of a
pin reset. -/
def Obligations.AttentionFollowsThePublishedRings : Prop :=
  ∀ s : State,
    let nonEmpty (published consumer : Word) : Prop :=
      1 ≤ (published - consumer).toNat ∧ (published - consumer).toNat ≤ 1024
    (s.pins.inReset = false →
      (s.attention = true ↔ s.ccu.cfg.attnEn = true ∧ (nonEmpty s.rpw.pubEv s.rpw.evCons ∨
        (s.ccu.cfg.attnDigest = true ∧ nonEmpty s.rpw.pubDg s.rpw.dgCons))) ∧
      (s.attnN = if s.attention then s.pins.attnPol else !s.pins.attnPol)) ∧
    (s.pins.inReset = true → s.attnN = !s.pins.attnPolPin) ∧
    (∀ (p : Bool) (ca : BitVec 8) (t u : State), exec (.pinReset p) s = .next t → exec (.resetRelease ca) t = .next u →
      u.attention = false ∧ u.attnN = !p)

/-! ## The whole machine -/

/-- R152, R153, R154: no command but PIN_RESET moves the run clock, and none but PIN_RESET, SET_TIME and ADJUST_TIME moves
the site-time offset. That no command takes time is the model's choice (log 2). -/
def Obligations.OnlyTimeCommandsMoveTheClocks : Prop :=
  ∀ (c : Instr) (s t : State), exec c s = .next t → (∀ p, c ≠ .pinReset p) →
    t.tbs.runClock = s.tbs.runClock ∧ (c ≠ .setTime → c ≠ .adjustTime → t.tbs.offset = s.tbs.offset)

/-- R105, R167, R168: every step keeps the configuration shadow in its ranges. -/
def Obligations.StepsKeepTheShadowInRange : Prop :=
  ∀ s t : State, s.ShadowInRange → step s = .next t → t.ShadowInRange

/-- R16: every step keeps the injection queue within 16 entries, and lets a request wait only while it holds 16. -/
def Obligations.StepsKeepTheInjectionQueue : Prop :=
  ∀ s t : State, s.QueueFits → step s = .next t → t.QueueFits

/-- R129: every step keeps the law of the coverage grid, the shadow being in its ranges. -/
def Obligations.StepsKeepTheGridLawful : Prop :=
  ∀ s t : State, s.ShadowInRange → s.GridLawful → step s = .next t → t.GridLawful

/-- The state after pin reset keeps the three laws (R16, R129, R168). -/
def Obligations.ResetIsSafe : Prop := State.reset.Safe
end

