-- ==== Sys2Proof/Laws/Bytes.lean ====
section
/-! SUPPORT. Byte order, word assembly and slot maps: what each can give. -/

namespace Sys2Proof.Machine

@[simp] theorem leBytes_length (n v : Nat) : (leBytes n v).length = n := by
  induction n generalizing v with
  | zero => rfl
  | succ n ih => simp [leBytes, ih]

/-- The little-endian bytes of a value give its residue back. -/
theorem leVal_leBytes (n v : Nat) : leVal (leBytes n v) = v % 256 ^ n := by
  induction n generalizing v with
  | zero => simp [leBytes, leVal, Nat.mod_one]
  | succ n ih =>
    have split : v % 256 ^ (n + 1) = v % 256 + 256 * (v / 256 % 256 ^ n) := by
      rw [Nat.pow_succ, Nat.mul_comm (256 ^ n) 256, Nat.mod_mul]
    simp only [leBytes, leVal, ih, BitVec.toNat_ofNat]
    exact split.symm

/-- A beat inside the address space lies where the burst counts it to. -/
theorem beatPlace_inside (a : Nat) (h : a < 2 ^ 32) : beatPlace a = a := if_pos h

/-- Assembly hands a value on exactly when the pending set comes out empty by completion; otherwise the pending set is what
was written over what was pending (R6). -/
theorem assemble_cases (width : Nat) (pend w : List (Nat × Byte)) :
    (∃ v, assemble width pend w = ([], some v)) ∨ (∃ p, assemble width pend w = (p, none) ∧ p.length ≠ width) := by
  unfold assemble
  simp only
  split
  · exact .inl ⟨_, rfl⟩
  · exact .inr ⟨_, rfl, ‹_›⟩

/-- A slot map reads what was put at the slot. -/
theorem mapGet_mapPut {α : Type} (k : Nat) (v : α) (l : List (Nat × α)) : mapGet (mapPut k v l) k = some v := by
  induction l with
  | nil => simp [mapPut, mapGet]
  | cons h t ih =>
    obtain ⟨k', v'⟩ := h
    unfold mapPut
    split
    · simp [mapGet]
    · split
      · simp [mapGet]
      · simpa [mapGet, List.lookup, beq_eq_false_iff_ne.mpr ‹k ≠ k'›] using ih

/-- A slot map reads every other slot as before. -/
theorem mapGet_mapPut_ne {α : Type} (k j : Nat) (v : α) (l : List (Nat × α)) (h : j ≠ k) :
    mapGet (mapPut k v l) j = mapGet l j := by
  induction l with
  | nil => simp [mapPut, mapGet, List.lookup, beq_eq_false_iff_ne.mpr h]
  | cons a t ih =>
    obtain ⟨k', v'⟩ := a
    unfold mapPut
    split
    · simp [mapGet, List.lookup, beq_eq_false_iff_ne.mpr h]
    · split
      · rename_i e
        subst e
        simp [mapGet, List.lookup, beq_eq_false_iff_ne.mpr h]
      · simp only [mapGet, List.lookup] at ih ⊢
        split <;> simp_all

end Sys2Proof.Machine
end

