-- ==== Sys2Proof/Laws/State.lean ====
section
/-! SUPPORT. What each update of the state leaves as it was, field by field, and what the accessors read after it. -/

namespace Sys2Proof.Machine

@[simp] theorem State.onPins_pending (s : State) (f : Pins → Pins) : (s.onPins f).pending = s.pending := rfl
@[simp] theorem State.onPins_pins (s : State) (f : Pins → Pins) : (s.onPins f).pins = f s.pins := rfl
@[simp] theorem State.onPins_lif (s : State) (f : Pins → Pins) : (s.onPins f).lif = s.lif := rfl
@[simp] theorem State.onPins_rmn (s : State) (f : Pins → Pins) : (s.onPins f).rmn = s.rmn := rfl
@[simp] theorem State.onPins_tdr (s : State) (f : Pins → Pins) : (s.onPins f).tdr = s.tdr := rfl
@[simp] theorem State.onPins_csv (s : State) (f : Pins → Pins) : (s.onPins f).csv = s.csv := rfl
@[simp] theorem State.onPins_rfm (s : State) (f : Pins → Pins) : (s.onPins f).rfm = s.rfm := rfl
@[simp] theorem State.onPins_cvm (s : State) (f : Pins → Pins) : (s.onPins f).cvm = s.cvm := rfl
@[simp] theorem State.onPins_tbs (s : State) (f : Pins → Pins) : (s.onPins f).tbs = s.tbs := rfl
@[simp] theorem State.onPins_ccu (s : State) (f : Pins → Pins) : (s.onPins f).ccu = s.ccu := rfl
@[simp] theorem State.onPins_rpw (s : State) (f : Pins → Pins) : (s.onPins f).rpw = s.rpw := rfl

@[simp] theorem State.onLif_pending (s : State) (f : Lif → Lif) : (s.onLif f).pending = s.pending := rfl
@[simp] theorem State.onLif_pins (s : State) (f : Lif → Lif) : (s.onLif f).pins = s.pins := rfl
@[simp] theorem State.onLif_lif (s : State) (f : Lif → Lif) : (s.onLif f).lif = f s.lif := rfl
@[simp] theorem State.onLif_rmn (s : State) (f : Lif → Lif) : (s.onLif f).rmn = s.rmn := rfl
@[simp] theorem State.onLif_tdr (s : State) (f : Lif → Lif) : (s.onLif f).tdr = s.tdr := rfl
@[simp] theorem State.onLif_csv (s : State) (f : Lif → Lif) : (s.onLif f).csv = s.csv := rfl
@[simp] theorem State.onLif_rfm (s : State) (f : Lif → Lif) : (s.onLif f).rfm = s.rfm := rfl
@[simp] theorem State.onLif_cvm (s : State) (f : Lif → Lif) : (s.onLif f).cvm = s.cvm := rfl
@[simp] theorem State.onLif_tbs (s : State) (f : Lif → Lif) : (s.onLif f).tbs = s.tbs := rfl
@[simp] theorem State.onLif_ccu (s : State) (f : Lif → Lif) : (s.onLif f).ccu = s.ccu := rfl
@[simp] theorem State.onLif_rpw (s : State) (f : Lif → Lif) : (s.onLif f).rpw = s.rpw := rfl

@[simp] theorem State.onRmn_pending (s : State) (f : Rmn → Rmn) : (s.onRmn f).pending = s.pending := rfl
@[simp] theorem State.onRmn_pins (s : State) (f : Rmn → Rmn) : (s.onRmn f).pins = s.pins := rfl
@[simp] theorem State.onRmn_lif (s : State) (f : Rmn → Rmn) : (s.onRmn f).lif = s.lif := rfl
@[simp] theorem State.onRmn_rmn (s : State) (f : Rmn → Rmn) : (s.onRmn f).rmn = f s.rmn := rfl
@[simp] theorem State.onRmn_tdr (s : State) (f : Rmn → Rmn) : (s.onRmn f).tdr = s.tdr := rfl
@[simp] theorem State.onRmn_csv (s : State) (f : Rmn → Rmn) : (s.onRmn f).csv = s.csv := rfl
@[simp] theorem State.onRmn_rfm (s : State) (f : Rmn → Rmn) : (s.onRmn f).rfm = s.rfm := rfl
@[simp] theorem State.onRmn_cvm (s : State) (f : Rmn → Rmn) : (s.onRmn f).cvm = s.cvm := rfl
@[simp] theorem State.onRmn_tbs (s : State) (f : Rmn → Rmn) : (s.onRmn f).tbs = s.tbs := rfl
@[simp] theorem State.onRmn_ccu (s : State) (f : Rmn → Rmn) : (s.onRmn f).ccu = s.ccu := rfl
@[simp] theorem State.onRmn_rpw (s : State) (f : Rmn → Rmn) : (s.onRmn f).rpw = s.rpw := rfl

@[simp] theorem State.onTdr_pending (s : State) (f : Tdr → Tdr) : (s.onTdr f).pending = s.pending := rfl
@[simp] theorem State.onTdr_pins (s : State) (f : Tdr → Tdr) : (s.onTdr f).pins = s.pins := rfl
@[simp] theorem State.onTdr_lif (s : State) (f : Tdr → Tdr) : (s.onTdr f).lif = s.lif := rfl
@[simp] theorem State.onTdr_rmn (s : State) (f : Tdr → Tdr) : (s.onTdr f).rmn = s.rmn := rfl
@[simp] theorem State.onTdr_tdr (s : State) (f : Tdr → Tdr) : (s.onTdr f).tdr = f s.tdr := rfl
@[simp] theorem State.onTdr_csv (s : State) (f : Tdr → Tdr) : (s.onTdr f).csv = s.csv := rfl
@[simp] theorem State.onTdr_rfm (s : State) (f : Tdr → Tdr) : (s.onTdr f).rfm = s.rfm := rfl
@[simp] theorem State.onTdr_cvm (s : State) (f : Tdr → Tdr) : (s.onTdr f).cvm = s.cvm := rfl
@[simp] theorem State.onTdr_tbs (s : State) (f : Tdr → Tdr) : (s.onTdr f).tbs = s.tbs := rfl
@[simp] theorem State.onTdr_ccu (s : State) (f : Tdr → Tdr) : (s.onTdr f).ccu = s.ccu := rfl
@[simp] theorem State.onTdr_rpw (s : State) (f : Tdr → Tdr) : (s.onTdr f).rpw = s.rpw := rfl

@[simp] theorem State.onCsv_pending (s : State) (f : Vector Crane 32 → Vector Crane 32) : (s.onCsv f).pending = s.pending := rfl
@[simp] theorem State.onCsv_pins (s : State) (f : Vector Crane 32 → Vector Crane 32) : (s.onCsv f).pins = s.pins := rfl
@[simp] theorem State.onCsv_lif (s : State) (f : Vector Crane 32 → Vector Crane 32) : (s.onCsv f).lif = s.lif := rfl
@[simp] theorem State.onCsv_rmn (s : State) (f : Vector Crane 32 → Vector Crane 32) : (s.onCsv f).rmn = s.rmn := rfl
@[simp] theorem State.onCsv_tdr (s : State) (f : Vector Crane 32 → Vector Crane 32) : (s.onCsv f).tdr = s.tdr := rfl
@[simp] theorem State.onCsv_csv (s : State) (f : Vector Crane 32 → Vector Crane 32) : (s.onCsv f).csv = f s.csv := rfl
@[simp] theorem State.onCsv_rfm (s : State) (f : Vector Crane 32 → Vector Crane 32) : (s.onCsv f).rfm = s.rfm := rfl
@[simp] theorem State.onCsv_cvm (s : State) (f : Vector Crane 32 → Vector Crane 32) : (s.onCsv f).cvm = s.cvm := rfl
@[simp] theorem State.onCsv_tbs (s : State) (f : Vector Crane 32 → Vector Crane 32) : (s.onCsv f).tbs = s.tbs := rfl
@[simp] theorem State.onCsv_ccu (s : State) (f : Vector Crane 32 → Vector Crane 32) : (s.onCsv f).ccu = s.ccu := rfl
@[simp] theorem State.onCsv_rpw (s : State) (f : Vector Crane 32 → Vector Crane 32) : (s.onCsv f).rpw = s.rpw := rfl

@[simp] theorem State.onRfm_pending (s : State) (f : Rfm → Rfm) : (s.onRfm f).pending = s.pending := rfl
@[simp] theorem State.onRfm_pins (s : State) (f : Rfm → Rfm) : (s.onRfm f).pins = s.pins := rfl
@[simp] theorem State.onRfm_lif (s : State) (f : Rfm → Rfm) : (s.onRfm f).lif = s.lif := rfl
@[simp] theorem State.onRfm_rmn (s : State) (f : Rfm → Rfm) : (s.onRfm f).rmn = s.rmn := rfl
@[simp] theorem State.onRfm_tdr (s : State) (f : Rfm → Rfm) : (s.onRfm f).tdr = s.tdr := rfl
@[simp] theorem State.onRfm_csv (s : State) (f : Rfm → Rfm) : (s.onRfm f).csv = s.csv := rfl
@[simp] theorem State.onRfm_rfm (s : State) (f : Rfm → Rfm) : (s.onRfm f).rfm = f s.rfm := rfl
@[simp] theorem State.onRfm_cvm (s : State) (f : Rfm → Rfm) : (s.onRfm f).cvm = s.cvm := rfl
@[simp] theorem State.onRfm_tbs (s : State) (f : Rfm → Rfm) : (s.onRfm f).tbs = s.tbs := rfl
@[simp] theorem State.onRfm_ccu (s : State) (f : Rfm → Rfm) : (s.onRfm f).ccu = s.ccu := rfl
@[simp] theorem State.onRfm_rpw (s : State) (f : Rfm → Rfm) : (s.onRfm f).rpw = s.rpw := rfl

@[simp] theorem State.onCvm_pending (s : State) (f : Cvm → Cvm) : (s.onCvm f).pending = s.pending := rfl
@[simp] theorem State.onCvm_pins (s : State) (f : Cvm → Cvm) : (s.onCvm f).pins = s.pins := rfl
@[simp] theorem State.onCvm_lif (s : State) (f : Cvm → Cvm) : (s.onCvm f).lif = s.lif := rfl
@[simp] theorem State.onCvm_rmn (s : State) (f : Cvm → Cvm) : (s.onCvm f).rmn = s.rmn := rfl
@[simp] theorem State.onCvm_tdr (s : State) (f : Cvm → Cvm) : (s.onCvm f).tdr = s.tdr := rfl
@[simp] theorem State.onCvm_csv (s : State) (f : Cvm → Cvm) : (s.onCvm f).csv = s.csv := rfl
@[simp] theorem State.onCvm_rfm (s : State) (f : Cvm → Cvm) : (s.onCvm f).rfm = s.rfm := rfl
@[simp] theorem State.onCvm_cvm (s : State) (f : Cvm → Cvm) : (s.onCvm f).cvm = f s.cvm := rfl
@[simp] theorem State.onCvm_tbs (s : State) (f : Cvm → Cvm) : (s.onCvm f).tbs = s.tbs := rfl
@[simp] theorem State.onCvm_ccu (s : State) (f : Cvm → Cvm) : (s.onCvm f).ccu = s.ccu := rfl
@[simp] theorem State.onCvm_rpw (s : State) (f : Cvm → Cvm) : (s.onCvm f).rpw = s.rpw := rfl

@[simp] theorem State.onTbs_pending (s : State) (f : Tbs → Tbs) : (s.onTbs f).pending = s.pending := rfl
@[simp] theorem State.onTbs_pins (s : State) (f : Tbs → Tbs) : (s.onTbs f).pins = s.pins := rfl
@[simp] theorem State.onTbs_lif (s : State) (f : Tbs → Tbs) : (s.onTbs f).lif = s.lif := rfl
@[simp] theorem State.onTbs_rmn (s : State) (f : Tbs → Tbs) : (s.onTbs f).rmn = s.rmn := rfl
@[simp] theorem State.onTbs_tdr (s : State) (f : Tbs → Tbs) : (s.onTbs f).tdr = s.tdr := rfl
@[simp] theorem State.onTbs_csv (s : State) (f : Tbs → Tbs) : (s.onTbs f).csv = s.csv := rfl
@[simp] theorem State.onTbs_rfm (s : State) (f : Tbs → Tbs) : (s.onTbs f).rfm = s.rfm := rfl
@[simp] theorem State.onTbs_cvm (s : State) (f : Tbs → Tbs) : (s.onTbs f).cvm = s.cvm := rfl
@[simp] theorem State.onTbs_tbs (s : State) (f : Tbs → Tbs) : (s.onTbs f).tbs = f s.tbs := rfl
@[simp] theorem State.onTbs_ccu (s : State) (f : Tbs → Tbs) : (s.onTbs f).ccu = s.ccu := rfl
@[simp] theorem State.onTbs_rpw (s : State) (f : Tbs → Tbs) : (s.onTbs f).rpw = s.rpw := rfl

@[simp] theorem State.onCcu_pending (s : State) (f : Ccu → Ccu) : (s.onCcu f).pending = s.pending := rfl
@[simp] theorem State.onCcu_pins (s : State) (f : Ccu → Ccu) : (s.onCcu f).pins = s.pins := rfl
@[simp] theorem State.onCcu_lif (s : State) (f : Ccu → Ccu) : (s.onCcu f).lif = s.lif := rfl
@[simp] theorem State.onCcu_rmn (s : State) (f : Ccu → Ccu) : (s.onCcu f).rmn = s.rmn := rfl
@[simp] theorem State.onCcu_tdr (s : State) (f : Ccu → Ccu) : (s.onCcu f).tdr = s.tdr := rfl
@[simp] theorem State.onCcu_csv (s : State) (f : Ccu → Ccu) : (s.onCcu f).csv = s.csv := rfl
@[simp] theorem State.onCcu_rfm (s : State) (f : Ccu → Ccu) : (s.onCcu f).rfm = s.rfm := rfl
@[simp] theorem State.onCcu_cvm (s : State) (f : Ccu → Ccu) : (s.onCcu f).cvm = s.cvm := rfl
@[simp] theorem State.onCcu_tbs (s : State) (f : Ccu → Ccu) : (s.onCcu f).tbs = s.tbs := rfl
@[simp] theorem State.onCcu_ccu (s : State) (f : Ccu → Ccu) : (s.onCcu f).ccu = f s.ccu := rfl
@[simp] theorem State.onCcu_rpw (s : State) (f : Ccu → Ccu) : (s.onCcu f).rpw = s.rpw := rfl

@[simp] theorem State.onRpw_pending (s : State) (f : Rpw → Rpw) : (s.onRpw f).pending = s.pending := rfl
@[simp] theorem State.onRpw_pins (s : State) (f : Rpw → Rpw) : (s.onRpw f).pins = s.pins := rfl
@[simp] theorem State.onRpw_lif (s : State) (f : Rpw → Rpw) : (s.onRpw f).lif = s.lif := rfl
@[simp] theorem State.onRpw_rmn (s : State) (f : Rpw → Rpw) : (s.onRpw f).rmn = s.rmn := rfl
@[simp] theorem State.onRpw_tdr (s : State) (f : Rpw → Rpw) : (s.onRpw f).tdr = s.tdr := rfl
@[simp] theorem State.onRpw_csv (s : State) (f : Rpw → Rpw) : (s.onRpw f).csv = s.csv := rfl
@[simp] theorem State.onRpw_rfm (s : State) (f : Rpw → Rpw) : (s.onRpw f).rfm = s.rfm := rfl
@[simp] theorem State.onRpw_cvm (s : State) (f : Rpw → Rpw) : (s.onRpw f).cvm = s.cvm := rfl
@[simp] theorem State.onRpw_tbs (s : State) (f : Rpw → Rpw) : (s.onRpw f).tbs = s.tbs := rfl
@[simp] theorem State.onRpw_ccu (s : State) (f : Rpw → Rpw) : (s.onRpw f).ccu = s.ccu := rfl
@[simp] theorem State.onRpw_rpw (s : State) (f : Rpw → Rpw) : (s.onRpw f).rpw = f s.rpw := rfl

@[simp] theorem State.onRing_pending (s : State) (i : Fin 16) (f : Ring → Ring) : (s.onRing i f).pending = s.pending := rfl
@[simp] theorem State.onRing_pins (s : State) (i : Fin 16) (f : Ring → Ring) : (s.onRing i f).pins = s.pins := rfl
@[simp] theorem State.onRing_lif (s : State) (i : Fin 16) (f : Ring → Ring) : (s.onRing i f).lif = s.lif := rfl
@[simp] theorem State.onRing_tdr (s : State) (i : Fin 16) (f : Ring → Ring) : (s.onRing i f).tdr = s.tdr := rfl
@[simp] theorem State.onRing_csv (s : State) (i : Fin 16) (f : Ring → Ring) : (s.onRing i f).csv = s.csv := rfl
@[simp] theorem State.onRing_rfm (s : State) (i : Fin 16) (f : Ring → Ring) : (s.onRing i f).rfm = s.rfm := rfl
@[simp] theorem State.onRing_cvm (s : State) (i : Fin 16) (f : Ring → Ring) : (s.onRing i f).cvm = s.cvm := rfl
@[simp] theorem State.onRing_tbs (s : State) (i : Fin 16) (f : Ring → Ring) : (s.onRing i f).tbs = s.tbs := rfl
@[simp] theorem State.onRing_ccu (s : State) (i : Fin 16) (f : Ring → Ring) : (s.onRing i f).ccu = s.ccu := rfl
@[simp] theorem State.onRing_rpw (s : State) (i : Fin 16) (f : Ring → Ring) : (s.onRing i f).rpw = s.rpw := rfl

@[simp] theorem State.onBuffer_pending (s : State) (i : Fin 64) (f : Buffer → Buffer) : (s.onBuffer i f).pending = s.pending := rfl
@[simp] theorem State.onBuffer_pins (s : State) (i : Fin 64) (f : Buffer → Buffer) : (s.onBuffer i f).pins = s.pins := rfl
@[simp] theorem State.onBuffer_lif (s : State) (i : Fin 64) (f : Buffer → Buffer) : (s.onBuffer i f).lif = s.lif := rfl
@[simp] theorem State.onBuffer_tdr (s : State) (i : Fin 64) (f : Buffer → Buffer) : (s.onBuffer i f).tdr = s.tdr := rfl
@[simp] theorem State.onBuffer_csv (s : State) (i : Fin 64) (f : Buffer → Buffer) : (s.onBuffer i f).csv = s.csv := rfl
@[simp] theorem State.onBuffer_rfm (s : State) (i : Fin 64) (f : Buffer → Buffer) : (s.onBuffer i f).rfm = s.rfm := rfl
@[simp] theorem State.onBuffer_cvm (s : State) (i : Fin 64) (f : Buffer → Buffer) : (s.onBuffer i f).cvm = s.cvm := rfl
@[simp] theorem State.onBuffer_tbs (s : State) (i : Fin 64) (f : Buffer → Buffer) : (s.onBuffer i f).tbs = s.tbs := rfl
@[simp] theorem State.onBuffer_ccu (s : State) (i : Fin 64) (f : Buffer → Buffer) : (s.onBuffer i f).ccu = s.ccu := rfl
@[simp] theorem State.onBuffer_rpw (s : State) (i : Fin 64) (f : Buffer → Buffer) : (s.onBuffer i f).rpw = s.rpw := rfl

@[simp] theorem State.onTracker_pending (s : State) (i : Fin 8) (f : Tracker → Tracker) : (s.onTracker i f).pending = s.pending := rfl
@[simp] theorem State.onTracker_pins (s : State) (i : Fin 8) (f : Tracker → Tracker) : (s.onTracker i f).pins = s.pins := rfl
@[simp] theorem State.onTracker_lif (s : State) (i : Fin 8) (f : Tracker → Tracker) : (s.onTracker i f).lif = s.lif := rfl
@[simp] theorem State.onTracker_tdr (s : State) (i : Fin 8) (f : Tracker → Tracker) : (s.onTracker i f).tdr = s.tdr := rfl
@[simp] theorem State.onTracker_csv (s : State) (i : Fin 8) (f : Tracker → Tracker) : (s.onTracker i f).csv = s.csv := rfl
@[simp] theorem State.onTracker_rfm (s : State) (i : Fin 8) (f : Tracker → Tracker) : (s.onTracker i f).rfm = s.rfm := rfl
@[simp] theorem State.onTracker_cvm (s : State) (i : Fin 8) (f : Tracker → Tracker) : (s.onTracker i f).cvm = s.cvm := rfl
@[simp] theorem State.onTracker_tbs (s : State) (i : Fin 8) (f : Tracker → Tracker) : (s.onTracker i f).tbs = s.tbs := rfl
@[simp] theorem State.onTracker_ccu (s : State) (i : Fin 8) (f : Tracker → Tracker) : (s.onTracker i f).ccu = s.ccu := rfl
@[simp] theorem State.onTracker_rpw (s : State) (i : Fin 8) (f : Tracker → Tracker) : (s.onTracker i f).rpw = s.rpw := rfl

@[simp] theorem State.onSlot_pending (s : State) (i : Fin 16) (f : HeldSlot → HeldSlot) : (s.onSlot i f).pending = s.pending := rfl
@[simp] theorem State.onSlot_pins (s : State) (i : Fin 16) (f : HeldSlot → HeldSlot) : (s.onSlot i f).pins = s.pins := rfl
@[simp] theorem State.onSlot_rmn (s : State) (i : Fin 16) (f : HeldSlot → HeldSlot) : (s.onSlot i f).rmn = s.rmn := rfl
@[simp] theorem State.onSlot_tdr (s : State) (i : Fin 16) (f : HeldSlot → HeldSlot) : (s.onSlot i f).tdr = s.tdr := rfl
@[simp] theorem State.onSlot_csv (s : State) (i : Fin 16) (f : HeldSlot → HeldSlot) : (s.onSlot i f).csv = s.csv := rfl
@[simp] theorem State.onSlot_rfm (s : State) (i : Fin 16) (f : HeldSlot → HeldSlot) : (s.onSlot i f).rfm = s.rfm := rfl
@[simp] theorem State.onSlot_cvm (s : State) (i : Fin 16) (f : HeldSlot → HeldSlot) : (s.onSlot i f).cvm = s.cvm := rfl
@[simp] theorem State.onSlot_tbs (s : State) (i : Fin 16) (f : HeldSlot → HeldSlot) : (s.onSlot i f).tbs = s.tbs := rfl
@[simp] theorem State.onSlot_ccu (s : State) (i : Fin 16) (f : HeldSlot → HeldSlot) : (s.onSlot i f).ccu = s.ccu := rfl
@[simp] theorem State.onSlot_rpw (s : State) (i : Fin 16) (f : HeldSlot → HeldSlot) : (s.onSlot i f).rpw = s.rpw := rfl

@[simp] theorem State.onEntry_pending (s : State) (i : Fin 256) (f : Terminal → Terminal) : (s.onEntry i f).pending = s.pending := rfl
@[simp] theorem State.onEntry_pins (s : State) (i : Fin 256) (f : Terminal → Terminal) : (s.onEntry i f).pins = s.pins := rfl
@[simp] theorem State.onEntry_lif (s : State) (i : Fin 256) (f : Terminal → Terminal) : (s.onEntry i f).lif = s.lif := rfl
@[simp] theorem State.onEntry_rmn (s : State) (i : Fin 256) (f : Terminal → Terminal) : (s.onEntry i f).rmn = s.rmn := rfl
@[simp] theorem State.onEntry_csv (s : State) (i : Fin 256) (f : Terminal → Terminal) : (s.onEntry i f).csv = s.csv := rfl
@[simp] theorem State.onEntry_rfm (s : State) (i : Fin 256) (f : Terminal → Terminal) : (s.onEntry i f).rfm = s.rfm := rfl
@[simp] theorem State.onEntry_cvm (s : State) (i : Fin 256) (f : Terminal → Terminal) : (s.onEntry i f).cvm = s.cvm := rfl
@[simp] theorem State.onEntry_tbs (s : State) (i : Fin 256) (f : Terminal → Terminal) : (s.onEntry i f).tbs = s.tbs := rfl
@[simp] theorem State.onEntry_ccu (s : State) (i : Fin 256) (f : Terminal → Terminal) : (s.onEntry i f).ccu = s.ccu := rfl
@[simp] theorem State.onEntry_rpw (s : State) (i : Fin 256) (f : Terminal → Terminal) : (s.onEntry i f).rpw = s.rpw := rfl

@[simp] theorem State.onCrane_pending (s : State) (i : Fin 32) (f : Crane → Crane) : (s.onCrane i f).pending = s.pending := rfl
@[simp] theorem State.onCrane_pins (s : State) (i : Fin 32) (f : Crane → Crane) : (s.onCrane i f).pins = s.pins := rfl
@[simp] theorem State.onCrane_lif (s : State) (i : Fin 32) (f : Crane → Crane) : (s.onCrane i f).lif = s.lif := rfl
@[simp] theorem State.onCrane_rmn (s : State) (i : Fin 32) (f : Crane → Crane) : (s.onCrane i f).rmn = s.rmn := rfl
@[simp] theorem State.onCrane_tdr (s : State) (i : Fin 32) (f : Crane → Crane) : (s.onCrane i f).tdr = s.tdr := rfl
@[simp] theorem State.onCrane_rfm (s : State) (i : Fin 32) (f : Crane → Crane) : (s.onCrane i f).rfm = s.rfm := rfl
@[simp] theorem State.onCrane_cvm (s : State) (i : Fin 32) (f : Crane → Crane) : (s.onCrane i f).cvm = s.cvm := rfl
@[simp] theorem State.onCrane_tbs (s : State) (i : Fin 32) (f : Crane → Crane) : (s.onCrane i f).tbs = s.tbs := rfl
@[simp] theorem State.onCrane_ccu (s : State) (i : Fin 32) (f : Crane → Crane) : (s.onCrane i f).ccu = s.ccu := rfl
@[simp] theorem State.onCrane_rpw (s : State) (i : Fin 32) (f : Crane → Crane) : (s.onCrane i f).rpw = s.rpw := rfl

@[simp] theorem State.onReefer_pending (s : State) (i : Fin 2048) (f : Reefer → Reefer) : (s.onReefer i f).pending = s.pending := rfl
@[simp] theorem State.onReefer_pins (s : State) (i : Fin 2048) (f : Reefer → Reefer) : (s.onReefer i f).pins = s.pins := rfl
@[simp] theorem State.onReefer_lif (s : State) (i : Fin 2048) (f : Reefer → Reefer) : (s.onReefer i f).lif = s.lif := rfl
@[simp] theorem State.onReefer_rmn (s : State) (i : Fin 2048) (f : Reefer → Reefer) : (s.onReefer i f).rmn = s.rmn := rfl
@[simp] theorem State.onReefer_tdr (s : State) (i : Fin 2048) (f : Reefer → Reefer) : (s.onReefer i f).tdr = s.tdr := rfl
@[simp] theorem State.onReefer_csv (s : State) (i : Fin 2048) (f : Reefer → Reefer) : (s.onReefer i f).csv = s.csv := rfl
@[simp] theorem State.onReefer_cvm (s : State) (i : Fin 2048) (f : Reefer → Reefer) : (s.onReefer i f).cvm = s.cvm := rfl
@[simp] theorem State.onReefer_tbs (s : State) (i : Fin 2048) (f : Reefer → Reefer) : (s.onReefer i f).tbs = s.tbs := rfl
@[simp] theorem State.onReefer_ccu (s : State) (i : Fin 2048) (f : Reefer → Reefer) : (s.onReefer i f).ccu = s.ccu := rfl
@[simp] theorem State.onReefer_rpw (s : State) (i : Fin 2048) (f : Reefer → Reefer) : (s.onReefer i f).rpw = s.rpw := rfl

@[simp] theorem State.onBin_pending (s : State) (i : Fin 64) (f : Bin → Bin) : (s.onBin i f).pending = s.pending := rfl
@[simp] theorem State.onBin_pins (s : State) (i : Fin 64) (f : Bin → Bin) : (s.onBin i f).pins = s.pins := rfl
@[simp] theorem State.onBin_lif (s : State) (i : Fin 64) (f : Bin → Bin) : (s.onBin i f).lif = s.lif := rfl
@[simp] theorem State.onBin_rmn (s : State) (i : Fin 64) (f : Bin → Bin) : (s.onBin i f).rmn = s.rmn := rfl
@[simp] theorem State.onBin_tdr (s : State) (i : Fin 64) (f : Bin → Bin) : (s.onBin i f).tdr = s.tdr := rfl
@[simp] theorem State.onBin_csv (s : State) (i : Fin 64) (f : Bin → Bin) : (s.onBin i f).csv = s.csv := rfl
@[simp] theorem State.onBin_rfm (s : State) (i : Fin 64) (f : Bin → Bin) : (s.onBin i f).rfm = s.rfm := rfl
@[simp] theorem State.onBin_tbs (s : State) (i : Fin 64) (f : Bin → Bin) : (s.onBin i f).tbs = s.tbs := rfl
@[simp] theorem State.onBin_ccu (s : State) (i : Fin 64) (f : Bin → Bin) : (s.onBin i f).ccu = s.ccu := rfl
@[simp] theorem State.onBin_rpw (s : State) (i : Fin 64) (f : Bin → Bin) : (s.onBin i f).rpw = s.rpw := rfl

@[simp] theorem State.ask_pending (s : State) (b : Block) (op : InjOp) : (s.ask b op).pending = s.pending := rfl
@[simp] theorem State.ask_pins (s : State) (b : Block) (op : InjOp) : (s.ask b op).pins = s.pins := rfl
@[simp] theorem State.ask_rmn (s : State) (b : Block) (op : InjOp) : (s.ask b op).rmn = s.rmn := rfl
@[simp] theorem State.ask_tdr (s : State) (b : Block) (op : InjOp) : (s.ask b op).tdr = s.tdr := rfl
@[simp] theorem State.ask_csv (s : State) (b : Block) (op : InjOp) : (s.ask b op).csv = s.csv := rfl
@[simp] theorem State.ask_rfm (s : State) (b : Block) (op : InjOp) : (s.ask b op).rfm = s.rfm := rfl
@[simp] theorem State.ask_cvm (s : State) (b : Block) (op : InjOp) : (s.ask b op).cvm = s.cvm := rfl
@[simp] theorem State.ask_tbs (s : State) (b : Block) (op : InjOp) : (s.ask b op).tbs = s.tbs := rfl
@[simp] theorem State.ask_ccu (s : State) (b : Block) (op : InjOp) : (s.ask b op).ccu = s.ccu := rfl
@[simp] theorem State.ask_rpw (s : State) (b : Block) (op : InjOp) : (s.ask b op).rpw = s.rpw := rfl

@[simp] theorem State.raise_pending (s : State) (b : Block) (k : EventKind) (sk : SubjKind) (n : Nat) (d0 d1 d2 : Int) :
    (s.raise b k sk n d0 d1 d2).pending = s.pending := rfl
@[simp] theorem State.raise_pins (s : State) (b : Block) (k : EventKind) (sk : SubjKind) (n : Nat) (d0 d1 d2 : Int) :
    (s.raise b k sk n d0 d1 d2).pins = s.pins := rfl
@[simp] theorem State.raise_lif (s : State) (b : Block) (k : EventKind) (sk : SubjKind) (n : Nat) (d0 d1 d2 : Int) :
    (s.raise b k sk n d0 d1 d2).lif = s.lif := rfl
@[simp] theorem State.raise_rmn (s : State) (b : Block) (k : EventKind) (sk : SubjKind) (n : Nat) (d0 d1 d2 : Int) :
    (s.raise b k sk n d0 d1 d2).rmn = s.rmn := rfl
@[simp] theorem State.raise_tdr (s : State) (b : Block) (k : EventKind) (sk : SubjKind) (n : Nat) (d0 d1 d2 : Int) :
    (s.raise b k sk n d0 d1 d2).tdr = s.tdr := rfl
@[simp] theorem State.raise_csv (s : State) (b : Block) (k : EventKind) (sk : SubjKind) (n : Nat) (d0 d1 d2 : Int) :
    (s.raise b k sk n d0 d1 d2).csv = s.csv := rfl
@[simp] theorem State.raise_rfm (s : State) (b : Block) (k : EventKind) (sk : SubjKind) (n : Nat) (d0 d1 d2 : Int) :
    (s.raise b k sk n d0 d1 d2).rfm = s.rfm := rfl
@[simp] theorem State.raise_cvm (s : State) (b : Block) (k : EventKind) (sk : SubjKind) (n : Nat) (d0 d1 d2 : Int) :
    (s.raise b k sk n d0 d1 d2).cvm = s.cvm := rfl
@[simp] theorem State.raise_tbs (s : State) (b : Block) (k : EventKind) (sk : SubjKind) (n : Nat) (d0 d1 d2 : Int) :
    (s.raise b k sk n d0 d1 d2).tbs = s.tbs := rfl
@[simp] theorem State.raise_ccu (s : State) (b : Block) (k : EventKind) (sk : SubjKind) (n : Nat) (d0 d1 d2 : Int) :
    (s.raise b k sk n d0 d1 d2).ccu = s.ccu := rfl

/-! ## Tables -/

/-- An updated table reads `f` of the old element at the place updated. -/
@[simp] theorem upd_self {α : Type} {n : Nat} (v : Vector α n) (i : Fin n) (f : α → α) : (upd v i f)[i] = f v[i] := by
  simp [upd]

/-- An updated table reads the old element at every other place. -/
theorem upd_ne {α : Type} {n : Nat} (v : Vector α n) (i j : Fin n) (f : α → α) (h : j ≠ i) : (upd v i f)[j] = v[j] := by
  simp only [upd, Fin.getElem_fin]
  exact Vector.getElem_set_ne i.isLt j.isLt (fun e => h (Fin.ext e.symm))

@[simp] theorem State.onRing_ring (s : State) (i : Fin 16) (f : Ring → Ring) : (s.onRing i f).ring i = f (s.ring i) :=
  upd_self _ _ _
theorem State.onRing_ring_ne (s : State) (i j : Fin 16) (f : Ring → Ring) (h : j ≠ i) : (s.onRing i f).ring j = s.ring j :=
  upd_ne _ _ _ _ h
@[simp] theorem State.onBuffer_buffer (s : State) (i : Fin 64) (f : Buffer → Buffer) : (s.onBuffer i f).buffer i = f (s.buffer i) :=
  upd_self _ _ _
theorem State.onBuffer_buffer_ne (s : State) (i j : Fin 64) (f : Buffer → Buffer) (h : j ≠ i) : (s.onBuffer i f).buffer j = s.buffer j :=
  upd_ne _ _ _ _ h
@[simp] theorem State.onTracker_tracker (s : State) (i : Fin 8) (f : Tracker → Tracker) : (s.onTracker i f).tracker i = f (s.tracker i) :=
  upd_self _ _ _
theorem State.onTracker_tracker_ne (s : State) (i j : Fin 8) (f : Tracker → Tracker) (h : j ≠ i) : (s.onTracker i f).tracker j = s.tracker j :=
  upd_ne _ _ _ _ h
@[simp] theorem State.onSlot_slot (s : State) (i : Fin 16) (f : HeldSlot → HeldSlot) : (s.onSlot i f).slot i = f (s.slot i) :=
  upd_self _ _ _
theorem State.onSlot_slot_ne (s : State) (i j : Fin 16) (f : HeldSlot → HeldSlot) (h : j ≠ i) : (s.onSlot i f).slot j = s.slot j :=
  upd_ne _ _ _ _ h
@[simp] theorem State.onEntry_entry (s : State) (i : Fin 256) (f : Terminal → Terminal) : (s.onEntry i f).entry i = f (s.entry i) :=
  upd_self _ _ _
theorem State.onEntry_entry_ne (s : State) (i j : Fin 256) (f : Terminal → Terminal) (h : j ≠ i) : (s.onEntry i f).entry j = s.entry j :=
  upd_ne _ _ _ _ h
@[simp] theorem State.onCrane_crane (s : State) (i : Fin 32) (f : Crane → Crane) : (s.onCrane i f).crane i = f (s.crane i) :=
  upd_self _ _ _
theorem State.onCrane_crane_ne (s : State) (i j : Fin 32) (f : Crane → Crane) (h : j ≠ i) : (s.onCrane i f).crane j = s.crane j :=
  upd_ne _ _ _ _ h
@[simp] theorem State.onReefer_reefer (s : State) (i : Fin 2048) (f : Reefer → Reefer) : (s.onReefer i f).reefer i = f (s.reefer i) :=
  upd_self _ _ _
theorem State.onReefer_reefer_ne (s : State) (i j : Fin 2048) (f : Reefer → Reefer) (h : j ≠ i) : (s.onReefer i f).reefer j = s.reefer j :=
  upd_ne _ _ _ _ h
@[simp] theorem State.onBin_bin (s : State) (i : Fin 64) (f : Bin → Bin) : (s.onBin i f).bin i = f (s.bin i) :=
  upd_self _ _ _
theorem State.onBin_bin_ne (s : State) (i j : Fin 64) (f : Bin → Bin) (h : j ≠ i) : (s.onBin i f).bin j = s.bin j :=
  upd_ne _ _ _ _ h

/-! ## Requests -/

/-- A request waits behind those that wait already. -/
@[simp] theorem State.ask_waiting (s : State) (b : Block) (op : InjOp) :
    (s.ask b op).lif.injWaiting = s.lif.injWaiting ++ [(b, op)] := rfl

/-- A request leaves the injection queue as it is until it joins. -/
@[simp] theorem State.ask_queue (s : State) (b : Block) (op : InjOp) :
    (s.ask b op).lif.injQueue = s.lif.injQueue := rfl

/-- An event request joins the requests that the report writer has not taken; the rest of the report writer is as it was. -/
theorem State.raise_rpw (s : State) (b : Block) (k : EventKind) (sk : SubjKind) (n : Nat) (d0 d1 d2 : Int) :
    (s.raise b k sk n d0 d1 d2).rpw =
      { s.rpw with
        events := s.rpw.events ++
          [{ block := b, kind := k, subjKind := sk, subject := BitVec.ofNat 32 n, d0 := BitVec.ofInt 32 d0,
             d1 := BitVec.ofInt 64 d1, d2 := BitVec.ofInt 64 d2, ofCommand := false }] } := rfl

end Sys2Proof.Machine
end

