-- ==== Sys2Proof/Laws/Queue.lean ====
section
/-! SUPPORT. The injection queue and the outcome of a step: when waiting requests join, and what a step that is due or not
due answers. -/

namespace Sys2Proof.Machine

/-- A step that is not due changes nothing. -/
@[simp] theorem stepWhen_false (body : State → State) (s : State) : stepWhen false body s = s := rfl

/-- A step that is due has its effect, and the requests that wait then join. -/
@[simp] theorem stepWhen_true (body : State → State) (s : State) : stepWhen true body s = settle (body s) := rfl

/-- With no request waiting nothing joins. -/
theorem settleN_idle (n : Nat) (s : State) (h : s.lif.injWaiting = []) : settleN n s = s := by
  cases n <;> simp [settleN, h]

/-- With no request waiting nothing joins. -/
theorem settle_idle (s : State) (h : s.lif.injWaiting = []) : settle s = s := settleN_idle _ s h

/-- With no place free nothing joins. -/
theorem settle_full (s : State) (h : Config.injectionDepth ≤ s.lif.injQueue.length) : settle s = s := by
  simp [settle, Nat.sub_eq_zero_of_le h, settleN]

/-- With places free the request that waits longest joins, and the rest goes on for the places left. -/
theorem settleN_succ (n : Nat) (s : State) (b : Block) (op : InjOp) (rest : List (Block × InjOp))
    (h : s.lif.injWaiting = (b, op) :: rest) :
    settleN (n + 1) s = settleN n (joinOp b op (s.onLif fun l => { l with injWaiting := rest })) := by
  simp [settleN, h]

/-- A single request that finds a place joins, where its joining asks for nothing more. -/
theorem settle_one (s : State) (b : Block) (op : InjOp) (h : s.lif.injWaiting = [(b, op)])
    (room : s.lif.injQueue.length < Config.injectionDepth)
    (quiet : (joinOp b op (s.onLif fun l => { l with injWaiting := [] })).lif.injWaiting = []) :
    settle s = joinOp b op (s.onLif fun l => { l with injWaiting := [] }) := by
  obtain ⟨n, hn⟩ : ∃ n, Config.injectionDepth - s.lif.injQueue.length = n + 1 :=
    ⟨Config.injectionDepth - s.lif.injQueue.length - 1, by omega⟩
  rw [settle, hn, settleN_succ n s b op [] h, settleN_idle _ _ quiet]

/-- A request that alone waits leaves, when it is taken from those that wait, what it found. -/
theorem ask_alone (s : State) (b : Block) (op : InjOp) (h : s.lif.injWaiting = []) :
    ((s.ask b op).onLif fun l => { l with injWaiting := [] }) = s := by
  obtain ⟨_, _, l, _, _, _, _, _, _, _, _⟩ := s
  obtain ⟨_, _, _, _, _, _, _, _, w, _, _, _, _⟩ := l
  cases (h : w = [])
  rfl

/-- An entry joins at the tail. -/
@[simp] theorem State.join_queue (s : State) (e : InjEntry) : (s.join e).lif.injQueue = s.lif.injQueue ++ [e] := rfl

/-- An entry that joins leaves the requests that wait. -/
@[simp] theorem State.join_waiting (s : State) (e : InjEntry) : (s.join e).lif.injWaiting = s.lif.injWaiting := rfl

/-- The status write joins: one entry with the status bytes of the record, and the executor is WRITING_BACK. -/
theorem joinOp_commandStatus (b : Block) (slot : Nat) (bytes : List Byte) (s : State) :
    joinOp b (.commandStatus slot bytes) s =
      (s.join (areaWrite s b (0x1000 + 64 * slot) [packBeat 1 bytes] false false .commandStatus)).onRpw
        fun r => { r with exec := .writingBack } := rfl

/-- An event record joins at index E, and E rises by 1. -/
theorem joinOp_eventRecord (b : Block) (bytes : List Byte) (s : State) :
    joinOp b (.eventRecord bytes) s = joinEvent bytes s := rfl

/-- On an empty queue a step lets a microsecond pass. -/
theorem step_idle (s : State) (h : s.pending = []) : step s = .next (tick s) := by simp [step, h]

end Sys2Proof.Machine
end

