-- ==== Sys2Proof/Laws/Operations.lean ====
section
/-! SUPPORT. For each operation that several commands share, what it can do: the cases of its rule, each with the state it
leaves. -/

namespace Sys2Proof.Machine

/-! ## The command executor -/

/-- What makes a record of kind `k` due (R179). -/
theorem commandDue_iff (k : CommandKind) (s : State) : s.commandDue k = true ↔
    s.pins.inReset = false ∧ s.rpw.exec = .idle ∧ s.running = true ∧ s.rpw.prod ≠ s.rpw.done ∧ s.waits .rpw = false ∧
      s.waits k.owner = false ∧ (s.rmn.handling = none ∨ k.ofReefer = false) ∧ commandOf (rdLe s.nextRecord 0 1) = k := by
  simp [State.commandDue, Bool.and_eq_true, and_assoc]

/-- A record that is not due changes nothing. -/
theorem takeCommand_idle {k : CommandKind} {s : State} (h : s.commandDue k = false) (enabled : Bool)
    (body : Record → State → State × Status) : takeCommand k enabled body s = .next s := by
  simp [takeCommand, h]

/-- A status write that finds a place joins at once (R181). -/
theorem settle_status (u : State) (slot : Nat) (bytes : List Byte) (quiet : u.lif.injWaiting = [])
    (room : u.lif.injQueue.length < Config.injectionDepth) :
    settle (u.ask .rpw (.commandStatus slot bytes)) =
      (u.join (areaWrite u .rpw (0x1000 + 64 * slot) [packBeat 1 bytes] false false .commandStatus)).onRpw
        fun r => { r with exec := .writingBack } := by
  rw [settle_one (b := .rpw) (op := .commandStatus slot bytes)]
  · simp [joinOp, State.ask, State.onLif, quiet, areaWrite, State.areaBase, State.join, State.onRpw]
  · simp [State.ask, State.onLif, quiet]
  · simpa using room
  · simp [joinOp]

/-- A command with its result and no event of its own outstanding asks for its status write (R181). -/
theorem completeCommand_silent (st : Status) (s : State) (h : s.rpw.exec = .executing)
    (calm : ∀ q ∈ s.rpw.events, q.ofCommand = false) :
    completeCommand st s = (s.onRpw fun r => { r with result := some st }).ask .rpw
      (.commandStatus (s.rpw.done.toNat % 256) (statusBytes st s.site)) := by
  have none : (s.rpw.events.any fun q => q.ofCommand) = false := by simpa using calm
  simp [completeCommand, writeStatus, State.eventsOwed, h, none]
  rfl

/-- A command that owes an event keeps its result until the event is taken (R180). -/
theorem completeCommand_owing (st : Status) (s : State) (q : EventReq) (hq : q ∈ s.rpw.events)
    (owed : q.ofCommand = true) : completeCommand st s = s.onRpw fun r => { r with result := some st } := by
  have some : (s.rpw.events.any fun q => q.ofCommand) = true := List.any_eq_true.mpr ⟨q, hq, owed⟩
  simp [completeCommand, writeStatus, State.eventsOwed, some]

/-- Events raised by a command are marked, the earlier ones kept (R180). -/
theorem markCommandEvents_append (s : State) (l m : List EventReq) (h : s.rpw.events = l ++ m) :
    markCommandEvents l.length s =
      s.onRpw fun r => { r with events := l ++ m.map fun q => { q with ofCommand := true } } := by
  simp [markCommandEvents, markEvents, State.onRpw, h]

/-- A snapshot that ended has its command's status from its outcome (R145, R146). -/
theorem closeSnapshot_cases (s : State) :
    (s.cvm.outcome = .done ∧ closeSnapshot s = completeCommand .done s) ∨
    (s.cvm.outcome ≠ .done ∧ closeSnapshot s = completeCommand .partialDone s) := by
  by_cases h : s.cvm.outcome = .done
  · exact .inl ⟨h, by simp [closeSnapshot, h]⟩
  · exact .inr ⟨h, by simp [closeSnapshot, h]⟩

/-! ## Rings -/

/-- The watermarks' three cases (R44). -/
theorem evalMarks_cases (r : Fin 16) (s : State) :
    ((s.ring r).above = false ∧ (s.ring r).desc.high ≤ occupancy (s.ring r) ∧
      evalMarks r s = (s.onRing r fun g => { g with above := true }).raise .rmn .ringHigh .ring r.val
        (occupancy (s.ring r)) 0 0) ∨
    ((s.ring r).above = true ∧ occupancy (s.ring r) ≤ (s.ring r).desc.low ∧
      evalMarks r s = (s.onRing r fun g => { g with above := false }).raise .rmn .ringLow .ring r.val
        (occupancy (s.ring r)) 0 0) ∨
    (((s.ring r).above = true ∨ occupancy (s.ring r) < (s.ring r).desc.high) ∧
      ((s.ring r).above = false ∨ (s.ring r).desc.low < occupancy (s.ring r)) ∧ evalMarks r s = s) := by
  cases ha : (s.ring r).above
  · by_cases hh : (s.ring r).desc.high ≤ occupancy (s.ring r)
    · exact .inl ⟨rfl, hh, by simp [evalMarks, ha, hh]⟩
    · exact .inr (.inr ⟨.inr (by omega), .inl rfl, by simp [evalMarks, ha, hh]⟩)
  · by_cases hl : occupancy (s.ring r) ≤ (s.ring r).desc.low
    · exact .inr (.inl ⟨rfl, hl, by simp [evalMarks, ha, hl]⟩)
    · exact .inr (.inr ⟨.inl rfl, .inr (by omega), by simp [evalMarks, ha, hl]⟩)

/-- A commit that is not complete stays as it is (R40). -/
theorem checkComplete_open (r : Fin 16) (s : State)
    (h : ∀ c, (s.ring r).commit = some c → (s.ring r).prod ≠ c.target ∨ (s.ring r).outstanding ≠ 0) :
    checkComplete r s = s := by
  simp only [checkComplete]
  split
  · rfl
  · next c hc =>
    rw [if_neg]
    rintro ⟨a, b⟩
    exact (h c hc).elim (· a) (· b)

/-- A complete commit ends, and one that a request caused asks for its release (R40). -/
theorem checkComplete_done (r : Fin 16) (s : State) (c : Commit) (hc : (s.ring r).commit = some c)
    (ht : (s.ring r).prod = c.target) (ho : (s.ring r).outstanding = 0) :
    checkComplete r s =
      if c.byRequest then releaseAfterCommit r (s.onRing r fun g => { g with commit := none })
      else s.onRing r fun g => { g with commit := none } := by
  unfold checkComplete
  simp [hc, ht, ho]

/-- A slot whose word no other slot holds releases its bytes to the forward path (R11, R12). -/
theorem releaseSlot_alone (r : Fin 16) (bytes : Assembly) (s : State) (h : s.sharing r = none) :
    releaseSlot r bytes s =
      (s.onLif fun l => { l with forwardPath := l.forwardPath ++ [releasedWrite r bytes s] }).onSlot r
        fun _ => .empty := by
  simp [releaseSlot, h]

/-- A producer value is evaluated while the part is RUNNING, or as the extension of an uplink commit (R29, R34, R40, R99);
otherwise it moves no index and only a held write is released. -/
theorem handProducer_cases (r x : Fin 16) (v : Word) (held : Bool) (s : State)
    (on : (s.ring r).state = .enabled ∨ (s.ring r).state = .disabling) :
    let u := s.onRing r fun g => { g with valueFrom := some x }
    (∃ c, (s.ring r).commit = some c ∧ (s.running = true ∨ (s.ring r).desc.dir = .uplink) ∧
      handProducer r x v held s = extendCommit r v held c u) ∨
    ((s.ring r).commit = none ∧ s.running = true ∧ handProducer r x v held s = beginCommit r v held u) ∨
    (s.running = false ∧ ((s.ring r).commit = none ∨ (s.ring r).desc.dir ≠ .uplink) ∧
      handProducer r x v held s = if held then releaseWithoutCommit r u else u) := by
  have run : (s.onRing r fun g => { g with valueFrom := some x }).running = s.running := rfl
  cases hc : (s.ring r).commit with
  | some c =>
    by_cases h : s.running = true ∨ (s.ring r).desc.dir = .uplink
    · exact .inl ⟨c, rfl, h, by simp [handProducer, on, hc, run, h]⟩
    · obtain ⟨hr, hd⟩ := not_or.mp h
      exact .inr (.inr ⟨by simpa using hr, .inr hd, by simp [handProducer, on, hc, run, hr, hd]⟩)
  | none =>
    cases hr : s.running
    · exact .inr (.inr ⟨rfl, .inl rfl, by simp [handProducer, on, hc, run, hr]⟩)
    · exact .inr (.inl ⟨rfl, rfl, by simp [handProducer, on, hc, run, hr]⟩)

/-- With no request waiting no block waits, by a request of its own or by an event. -/
theorem blocked_quiet (s : State) (b : Block) (h : s.lif.injWaiting = []) :
    s.waits b = false ∧ s.stalled b = false ∧ s.blocked b = false := by
  simp [State.waits, State.stalled, State.blocked, h]

/-- Where nothing was raised, nothing is held (R96, R106). -/
theorem heldBehind_silent (before s : State) (b : Block) (h : s.rpw.events.length ≤ before.rpw.events.length) :
    before.heldBehind s b = false := by simp [State.heldBehind, Nat.not_lt.mpr h]

/-- With no request waiting, what has room for its untaken events is not held. -/
theorem heldBehind_room (before s : State) (b : Block) (quiet : s.lif.injWaiting = [])
    (room : s.lif.injQueue.length + s.rpw.events.countP (fun q => q.block == b) ≤ 16) :
    before.heldBehind s b = false := by
  simp [State.heldBehind, State.eventRoom, State.waits, quiet, Config.injectionDepth, room]

/-- A downlink slot's commit begins, begins again after it was given up, or goes on from the step that held it (R96). -/
theorem commitDownlink_cases (r : Fin 16) (s : State) :
    (s.rmn.midway[r] = none ∧ commitDownlink r s = beginSlot r false s) ∨
    ∃ h, s.rmn.midway[r] = some h ∧
      ((h.givenUp = true ∧ commitDownlink r s = beginSlot r h.told (setMidway r none s)) ∨
      (h.givenUp = false ∧ h.measured = true ∧ commitDownlink r s = releaseRecord r (setMidway r none s)) ∨
      (h.givenUp = false ∧ h.measured = false ∧
        commitDownlink r s = measureSlot r h.runTime h.told (setMidway r none s))) := by
  unfold commitDownlink
  rcases s.rmn.midway[r] with _ | h
  · exact .inl ⟨rfl, rfl⟩
  · cases hg : h.givenUp <;> cases hm : h.measured <;> simp [hg, hm]

/-- Step 3 of R96 goes on to step 4, or is held with the commit run time it was given. -/
theorem measureSlot_cases (r : Fin 16) (t : Nat) (told : Bool) (s : State) :
    let u := onRecord r (fun i e s => lengthAndCommand r i e t s) s
    (s.heldBehind u .rmn = false ∧ measureSlot r t told s = releaseRecord r u) ∨
    (s.heldBehind u .rmn = true ∧
      measureSlot r t told s = setMidway r (some { runTime := t, measured := true, told := told, givenUp := false }) u) := by
  intro u
  have h : measureSlot r t told s = if s.heldBehind u .rmn then
      setMidway r (some { runTime := t, measured := true, told := told, givenUp := false }) u
    else releaseRecord r u := rfl
  cases hu : s.heldBehind u .rmn <;> simp [h, hu]

/-- When the next downlink slot of a ring does not wait behind an event (R96). -/
theorem slotFree_iff (s : State) (r : Fin 16) : s.slotFree r = true ↔
    ∀ h, s.rmn.midway[r] = some h → h.givenUp = true ∨ s.eventRoom .rmn = true := by
  unfold State.slotFree
  rcases s.rmn.midway[r] with _ | h <;> simp

/-- What ends SUSPENDING (R29, R173). -/
theorem drained_iff (s : State) : s.drained = true ↔
    s.pins.inReset = false ∧ s.ccu.part = .suspending ∧ (∀ r : Fin 16, (s.slot r).status = .empty) ∧
      s.rmn.dispatch = [] ∧ s.rpw.exec = .idle ∧ (∀ r : Fin 16, (s.ring r).commit = none) ∧
      s.blocked .ccu = false := by
  simp [State.drained, State.inProgress, State.slot, State.ring, Bool.and_eq_true, and_assoc, Fin.forall_iff]

/-! ## Digests -/

/-- A trigger's three cases (R123). -/
theorem trigger_cases (i : Fin 2048) (s : State) :
    ((s.reefer i).pending = true ∧
      trigger i s = s.onReefer i fun r => { r with triggers := satInc 255 r.triggers }) ∨
    ((s.reefer i).pending = false ∧ 1 ≤ s.digestFree ∧ trigger i s = writeDigest i 1 false s) ∨
    ((s.reefer i).pending = false ∧ s.digestFree = 0 ∧
      trigger i s = (s.onReefer i fun r => { r with pending := true, triggers := 1 }).onRfm fun m =>
        { m with pendingCount := m.pendingCount + 1 }) := by
  cases hp : (s.reefer i).pending
  · by_cases hf : 1 ≤ s.digestFree
    · exact .inr (.inl ⟨rfl, hf, by simp [trigger, hp, hf]⟩)
    · exact .inr (.inr ⟨rfl, by omega, by simp [trigger, hp, hf]⟩)
  · exact .inl ⟨rfl, by simp [trigger, hp]⟩

/-! ## The sweep -/

/-- What makes a visit due, or lets the one under way end (R160, R163). -/
theorem visitDue_iff (p : SweepPhase) (b : Block) (s : State) : s.visitDue p b = true ↔
    s.pins.inReset = false ∧ s.tbs.sweeping = true ∧ s.tbs.phase = p ∧ s.tbs.refreshing = false ∧
      s.blocked .tbs = false ∧ s.blocked b = false ∧
      ((s.tbs.visiting = false ∧ s.running = true) ∨ (s.tbs.visiting = true ∧ s.visitOpen = false)) := by
  cases hv : s.tbs.visiting <;> simp [State.visitDue, hv, Bool.and_eq_true, and_assoc]

/-- A trigger by part state and sweep state (R158). -/
theorem sweepTrigger_cases (src : TrigSel) (s : State) :
    ((s.ccu.part = .dormant ∨ s.ccu.part = .initialising) ∧ sweepTrigger src s = s) ∨
    (s.ccu.part = .running ∧ s.tbs.sweeping = true ∧ sweepTrigger src s = overrun src s) ∨
    (s.ccu.part = .running ∧ s.tbs.sweeping = false ∧ sweepTrigger src s = beginSweep s) ∨
    ((s.ccu.part = .suspending ∨ s.ccu.part = .suspended) ∧
      sweepTrigger src s = s.onTbs fun t => { t with restart := true }) := by
  cases hp : s.ccu.part <;> cases hs : s.tbs.sweeping <;> simp [sweepTrigger, hp, hs]

/-- The cursor moves and nothing else does (R160). -/
theorem advanceSweep_frame (s : State) : ∃ p n, advanceSweep s =
    { s with tbs := { s.tbs with phase := p, cursor := n } } := by
  refine ⟨(advanceSweep s).tbs.phase, (advanceSweep s).tbs.cursor, ?_⟩
  simp only [advanceSweep, State.onTbs]
  cases s.tbs.phase <;> simp only <;> (try split) <;> rfl

/-- A visit is over where it raised nothing and asked for nothing that waits, and otherwise keeps its cursor (R160). -/
theorem takeVisit_cases (body : State → State) (s : State) :
    let u := settle (markEvents (fun q => { q with ofVisit := true }) s.rpw.events.length (body s))
    (u.rpw.events.length ≤ s.rpw.events.length ∧ (u.waits .rpw = true → s.waits .rpw = true) ∧
      takeVisit body s = advanceSweep u) ∨
    ((s.rpw.events.length < u.rpw.events.length ∨ (u.waits .rpw = true ∧ s.waits .rpw = false)) ∧
      takeVisit body s = u.onTbs fun t => { t with visiting := true }) := by
  intro u
  have h : takeVisit body s =
      if s.rpw.events.length < u.rpw.events.length ∨ u.waits .rpw ∧ !s.waits .rpw then
        u.onTbs fun t => { t with visiting := true }
      else advanceSweep u := rfl
  by_cases c : s.rpw.events.length < u.rpw.events.length ∨ u.waits .rpw ∧ !s.waits .rpw
  · exact .inr ⟨by simpa using c, by rw [h, if_pos c]⟩
  · refine .inl ⟨?_, ?_, by rw [h, if_neg c]⟩
    · exact Nat.not_lt.mp fun l => c (.inl l)
    · intro w
      cases hs : s.waits .rpw
      · exact absurd (.inr ⟨w, by simp [hs]⟩) c
      · rfl

/-- A visit step ends the visit under way, or takes the next (R160). -/
theorem visitStep_cases (body : State → State) (s : State) :
    (s.tbs.visiting = true ∧ visitStep body s = advanceSweep (s.onTbs fun t => { t with visiting := false })) ∨
    (s.tbs.visiting = false ∧ visitStep body s = takeVisit body s) := by
  cases h : s.tbs.visiting <;> simp [visitStep, h]

/-- The end of a sweep leaves the link interface (R162). -/
theorem endSweep_lif (s : State) : (endSweep s).lif = s.lif := by
  unfold endSweep
  lift_lets
  intro u
  have same : u.lif = s.lif := rfl
  split <;> exact same

/-- A section that joins leaves the injection queue and what waits for it (R162, R164). -/
theorem refreshDone_lif (s : State) : (refreshDone s).lif = s.lif := by
  unfold refreshDone
  lift_lets
  intro u
  split
  · exact (endSweep_lif u).trans rfl
  · rfl

/-- A section of one entry is asked for where the injection queue has a place: it joins as an entry of the block that owns its
content (R164, R177). -/
theorem settle_section (s : State) (quiet : s.lif.injWaiting = [])
    (room : s.lif.injQueue.length < Config.injectionDepth) :
    let u := s.onTbs fun t => { t with refreshing := true }
    let k := Fin.ofNat 5 s.tbs.cursor
    let q := refreshSection k u
    q.2.length ≤ chunkSize → settle (askSection s) = refreshDone (u.join
      (areaWrite u (sectionOwner k) (0x8000 + q.1) (beatsOf q.2) false false .plain)) := by
  intro u k q short
  have same : (askSection s).onLif (fun l => { l with injWaiting := [] }) = u := ask_alone u _ _ quiet
  have joins : joinOp (sectionOwner k) (.refresh k) u = refreshDone (u.join
      (areaWrite u (sectionOwner k) (0x8000 + q.1) (beatsOf q.2) false false .plain)) := by
    simp only [joinOp, joinRefresh]
    rw [List.drop_eq_nil_of_le short, List.take_of_length_le short, if_pos rfl]
  rw [settle_one (b := sectionOwner k) (op := .refresh k), same, joins]
  · simp only [askSection, State.ask_waiting]
    rw [show (s.onTbs fun t => { t with refreshing := true }).lif.injWaiting = [] from quiet]
    rfl
  · exact room
  · rw [same, joins, refreshDone_lif]
    exact quiet

/-! ## The event ring -/

/-- A taken event after the indices are set, by the table of R184. -/
theorem recordEvent_cases (q : EventReq) (s : State) :
    (s.eventFree = 0 ∧ recordEvent q s = (s.onRpw (loseEvent q.kind)).ask .rpw (.indices true)) ∨
    (1 ≤ s.eventFree ∧ s.rpw.lost = 0 ∧ recordEvent q s = askEvent (eventBytes q s.site) s) ∨
    (s.eventFree = 1 ∧ s.rpw.lost ≠ 0 ∧ recordEvent q s = askLost (some q.kind) s) ∨
    (2 ≤ s.eventFree ∧ s.rpw.lost ≠ 0 ∧ recordEvent q s = askEvent (eventBytes q s.site) (askLost none s)) := by
  by_cases h0 : s.eventFree = 0
  · exact .inl ⟨h0, by simp [recordEvent, h0]⟩
  · by_cases hl : s.rpw.lost = 0
    · exact .inr (.inl ⟨by omega, hl, by simp [recordEvent, h0, hl]⟩)
    · by_cases h1 : s.eventFree = 1
      · exact .inr (.inr (.inl ⟨h1, hl, by simp [recordEvent, h1, hl]⟩))
      · exact .inr (.inr (.inr ⟨by omega, hl, by simp [recordEvent, h0, h1, hl]⟩))

end Sys2Proof.Machine
end

