-- ==== Sys2Proof/Tests/Slice0.lean ====
section
/-! SUPPORT. Tests: the checks of well-formedness, the spec's worked examples and values computed by hand from its rules,
and for every statement with hypotheses a state that meets them (`witness_…`, one for each clause). -/

namespace Sys2Proof.Tests

-- One theorem after another: so many at once would need more stacks than the memory limit of the check allows.
set_option Elab.async false

open Sys2Proof.Machine Sys2Proof.Claims

/-! ## Well-formedness: each check refuses a term -/

/-- One full beat. -/
def full (v : Nat) : Beat := { data := BitVec.ofNat 128 v, strobes := 0xFFFF }

theorem test_unaligned_write_refused :
    exec (.ulinkWrite 0 8 [full 0]) State.reset = .refused .illFormed := rfl

theorem test_write_of_no_beat_refused :
    exec (.ulinkWrite 0 16 []) State.reset = .refused .illFormed := rfl

theorem test_write_of_17_beats_refused :
    exec (.ulinkWrite 0 16 (List.replicate 17 (full 0))) State.reset = .refused .illFormed := rfl

theorem test_read_of_17_beats_refused : exec (.ulinkRead 0 16 17) State.reset = .refused .illFormed := rfl

theorem test_ill_formed_terms :
    (Instr.ulinkWrite 0 8 [full 0]).wf = false ∧ (Instr.ulinkRead 0 16 0).wf = false ∧
      (Instr.ulinkRead 0 0xFFFFFFF0 1).wf = true ∧ (Instr.ulinkRead 0 0xFFFFFFF0 2).wf = true := by decide

/-! ## Arithmetic, from the worked examples -/

/-- 06, worked example: the set of tag 0x00012345. -/
theorem test_set_of_tag : setOf 0x00012345 = 468 := by decide

/-- 07, R128: origin 12,000 cm, bin width 5,000 cm. -/
theorem test_position_bin :
    let c := { Cfg.reset with origin := 12000, binCount := 40 }
    positionBin c 29500 = some 3 ∧ positionBin c 11999 = none ∧ positionBin c 212000 = none := by decide

/-- R133: rounding half away from zero, in both directions. -/
theorem test_round_step : roundStep 5 1 = 3 ∧ roundStep (-5) 1 = -3 ∧ roundStep 4 3 = 1 ∧ roundStep 3 3 = 0 := by decide

/-- R37: end-around carry. -/
theorem test_ones_complement : ocAdd 0xFFFF 1 = 1 ∧ ocAdd 0x1234 0x4321 = 0x5555 := by decide

/-- R93: a word that does not change leaves the check; the patch of one word keeps the sum. -/
theorem test_patch_word :
    patchWord 0x1234 7 7 = 0x1234 ∧ ocAdd (ocAdd 0x1000 0xEFFF) 0 = 0xFFFF ∧
      ocAdd 0x2000 (patchWord 0xEFFF 0x1000 0x2000) = 0xFFFF := by decide

/-- R167: clamps of a written value. -/
theorem test_clamps : clampNat 1 15 0 = 1 ∧ clampNat 1 15 200 = 15 ∧ clampInt (-64) 63 (-100) = -64 := by decide

/-- R6: two halves assemble to the word; the first half alone gives nothing. -/
theorem test_word_assembly :
    assemble 4 [] [(0, 1), (1, 2)] = ([(0, 1), (1, 2)], none) ∧
      assemble 4 [(0, 1), (1, 2)] [(2, 3), (3, 4)] = ([], some 0x04030201) := by decide

/-- R26, R25: a slot count of 8 bounds the high watermark; the low one stays below it. -/
theorem test_watermark_clamp :
    (clampMarks { RingDesc.reset with high := 9, low := 9 }).high = 8 ∧
      (clampMarks { RingDesc.reset with high := 9, low := 9 }).low = 7 := by decide

/-- R80: the estimate moves by a sixteenth of the distance; it stays in its field. -/
theorem test_next_jitter : nextJitter 0 1300 1000 1 1 = 19 ∧ nextJitter 16777215 0 0 0 0 = 15728639 := by decide

/-- R108, R109: an excess of 30 over 120 s at a hold cap of 60 s gives a dose of 30 and 60 s unobserved. -/
theorem test_charge :
    let p := { Profile.reset with holdCap := 60 }
    let r := charge p 120000000 { Reefer.reset with doseClock := some 0, excess := 30 }
    r.dose = 30 ∧ r.unobserved = 60 ∧ r.doseClock = some 120000000 := by decide

/-- R190: non-empty from 1 to 1024. -/
theorem test_ring_non_empty :
    ringNonEmpty 5 5 = false ∧ ringNonEmpty 6 5 = true ∧ ringNonEmpty 1029 5 = true ∧ ringNonEmpty 1030 5 = false := by
  decide

/-! ## States -/

/-- The part RUNNING, its control area at 0x10000000. -/
def up : State :=
  { State.reset with
    pins := { inReset := false, attnPolPin := false, caSel := 0x10, attnPol := false }
    ccu := { Ccu.reset with part := .running } }

theorem up_ready (n : Nat) (h : n ≤ 16) : Ready n up := ⟨rfl, rfl, by simpa [up, State.reset, Lif.reset] using h⟩

/-- Ring 0 of `up` is `g`. -/
def withRing0 (g : Ring) : State := withRing 0 g up

/-- An ENABLED uplink ring of 8 slots at 0x20000000, with its index words at 0x20001000 and 0x20001010. -/
def uplink : Ring :=
  { Ring.reset with
    state := .enabled
    desc := { RingDesc.reset with base := 0x20000000, prodAddr := 0x20001000, consAddr := 0x20001010, enable := true } }

def downlink : Ring := { uplink with desc := { uplink.desc with dir := .downlink } }

theorem no_rewrite_uplink (s : State) (addr : Word) (beats : List Beat)
    (h : ∀ r, (s.ring r).state = .disabled ∨ (s.ring r).desc.dir = .uplink) : NoRewrite s addr beats := by
  intro r a d
  rcases h r with h | h
  · simp [Active, h] at a
  · simp [h] at d

theorem clear_of_disabled (s : State) (w : List (Nat × Byte)) (r : Fin 16) (h : (s.ring r).state = .disabled) :
    ClearOf s w r := by
  intro a
  simp [Active, h] at a

theorem off_disabled (s : State) (addr : Word) (beats : List Beat) (h : ∀ r, (s.ring r).state = .disabled)
    (e : ∀ r, (s.slot r).status = .empty) : OffTheRings s addr beats :=
  ⟨no_rewrite_uplink _ _ _ fun r => .inl (h r), fun r => clear_of_disabled _ _ r (h r), fun r a => absurd (e r) a⟩

theorem nothing_held (s : State) (w : List (Nat × Byte)) (h : ∀ r, (s.slot r).status = .empty) (r : Fin 16) :
    NothingHeld s w r := fun a => absurd (h r) a

theorem up_disabled (r : Fin 16) : (up.ring r).state = .disabled := by revert r; decide +kernel

theorem up_base : up.areaBase = 0x10000000 := by decide +kernel

theorem up_empty (r : Fin 16) : (up.slot r).status = .empty := by revert r; decide +kernel

/-- What a concrete write must show to meet no window and no held write. -/
theorem off_rings {s : State} {addr : Word} {beats : List Beat} (h : (∀ r, PassesBy s addr beats r) ∧
    (∀ r, ClearOf s (writtenBytes addr.toNat beats) r) ∧ ∀ r, NothingHeld s (writtenBytes addr.toNat beats) r) :
    OffTheRings s addr beats := ⟨h.1, h.2.1, h.2.2⟩

/-! ## Witnesses: pins and links -/

theorem witness_StepTakesTheFrontCommand : { up with pending := [.nop] }.pending = .nop :: [] := rfl

theorem witness_IdleStepLetsAMicrosecondPass : up.pending = [] := rfl

theorem witness_StrapsAreSampledAtRelease : State.reset.lif.injWaiting = [] := rfl

theorem witness_InResetOnlyThePinsAct :
    State.reset.pins.inReset = true ∧ (∀ p, Instr.dlinkGrant ≠ .pinReset p) ∧ (∀ ca, Instr.dlinkGrant ≠ .resetRelease ca) ∧
      Instr.dlinkGrant ≠ .attnPolChangeInReset ∧ exec .dlinkGrant State.reset = .next State.reset :=
  ⟨rfl, by simp, by simp, by simp, rfl⟩

theorem witness_PartPageWriteIsRefused :
    Offered 0x10007FF0 [full 0, full 0] up ∧ OwnedBeat up 0x10007FF0 [full 0, full 0] 1 ∧
      (∀ m < 1, ¬OwnedBeat up 0x10007FF0 [full 0, full 0] m) := by
  refine ⟨⟨rfl, by decide, rfl, by decide, by decide⟩, ⟨full 0, 0, rfl, by decide, by decide +kernel, ?_⟩, ?_⟩
  · exact .inl (by decide +kernel)
  · rintro m hm ⟨b, j, -, hj, -, h⟩
    obtain rfl : m = 0 := by omega
    have place : beatPlace ((0x10007FF0 : Word).toNat + 16 * 0) = 0x10007FF0 := by decide +kernel
    have base : up.areaBase = 0x10000000 := by decide +kernel
    simp only [InPartPage, place, base] at h
    omega

theorem witness_PlainWriteIsForwardedWhole :
    Offered 0x30000000 [full 7] up ∧ OutsideArea up (writtenBytes 0x30000000 [full 7]) ∧
      NoRewrite up 0x30000000 [full 7] ∧ (∀ r, ClearOf up (writtenBytes 0x30000000 [full 7]) r) ∧
      (∀ r, NothingHeld up (writtenBytes 0x30000000 [full 7]) r) :=
  ⟨⟨rfl, by decide, rfl, by decide, by decide⟩, by unfold OutsideArea InHostPage InPartPage; decide +kernel,
    no_rewrite_uplink _ _ _ fun r => .inl (up_disabled r), fun r => clear_of_disabled _ _ r (up_disabled r),
    nothing_held _ _ up_empty⟩

theorem witness_ConfigurationByteIsClampedAndLocked :
    let b : Beat := packBeat 9 [0xFF]
    Offered 0x10000000 [b] up ∧ up.lif.hostShadow = [] ∧ OffTheRings up 0x10000000 [b] ∧
      writtenBytes 0x10000000 [b] = [(up.areaBase + 0x009, 0xFF)] :=
  ⟨⟨rfl, by decide, rfl, by decide, by decide⟩, rfl, off_disabled _ _ _ up_disabled up_empty, by decide +kernel⟩

/-- `up` with every job on. -/
def jobs : State := { up with ccu := { up.ccu with cfg := { Cfg.reset with craneEn := true, reeferEn := true, coverageEn := true } } }

theorem witness_ConfigurationByteIsClampedAndLocked_locked :
    let b : Beat := packBeat 6 [65]
    Offered 0x10000040 [b] jobs ∧ jobs.lif.hostShadow = [] ∧ OffTheRings jobs 0x10000040 [b] ∧
      writtenBytes 0x10000040 [b] = [(jobs.areaBase + 0x046, 65)] ∧ jobs.ccu.cfg.coverageEn = true :=
  ⟨⟨rfl, by decide, rfl, by decide, by decide⟩, rfl, off_disabled _ _ _ up_disabled up_empty, by decide +kernel, rfl⟩

/-- `up` in part state `p` with RUN `run`. -/
def inPart (p : PartState) (run : Bool) : State :=
  { up with ccu := { up.ccu with part := p, cfg := { Cfg.reset with run := run } } }

theorem witness_ConfigurationByteIsClampedAndLocked_restart (p : PartState) :
    let s := inPart p false
    let b : Beat := packBeat 1 [255]
    Offered 0x10000000 [b] s ∧ s.lif.hostShadow = [] ∧ OffTheRings s 0x10000000 [b] ∧
      writtenBytes 0x10000000 [b] = [(s.areaBase + 0x001, 255)] ∧ (255 : Byte).toNat ≠ s.ccu.cfg.restartGen ∧
      s.ccu.part = p ∧ Ready 1 s :=
  ⟨⟨rfl, by simp [inPart, up, State.reset, Lif.reset], rfl, by decide, by decide⟩, rfl,
    off_disabled _ _ _ up_disabled up_empty, by rw [show (inPart p false).areaBase = 0x10000000 from up_base]; decide +kernel,
    by simp [inPart, Cfg.reset], rfl, rfl, rfl, by simp [inPart, up, State.reset, Lif.reset]⟩

theorem witness_ConfigurationByteIsClampedAndLocked_coverage :
    let b : Beat := packBeat 4 [1]
    Offered 0x10000000 [b] up ∧ up.lif.hostShadow = [] ∧ OffTheRings up 0x10000000 [b] ∧
      writtenBytes 0x10000000 [b] = [(up.areaBase + 0x004, 1)] ∧ (1 : Byte) ≠ 0 ∧ up.ccu.cfg.coverageEn = false :=
  ⟨⟨rfl, by decide, rfl, by decide, by decide⟩, rfl, off_disabled _ _ _ up_disabled up_empty, by decide +kernel⟩

/-- The code byte of the first and of the last record. -/
theorem witness_ConfigurationByteIsClampedAndLocked_code :
    ∀ n ∈ ([0, 255] : List (Fin 256)),
      let addr : Word := 0x10001000 + 64 * BitVec.ofNat 32 n.val
      let b : Beat := packBeat 0 [0x31]
      Offered addr [b] up ∧ up.lif.hostShadow = [] ∧ OffTheRings up addr [b] ∧
        writtenBytes addr.toNat [b] = [(up.areaBase + (0x1000 + 64 * n.val), 0x31)] := by
  intro n h
  refine ⟨⟨rfl, by decide, rfl, ?_, by decide⟩, rfl, off_disabled _ _ _ up_disabled up_empty, ?_⟩ <;> decide +kernel +revert

/-- Ring 0 with enable `on` and state `st`. -/
def switched (on : Bool) (st : RingState) : State :=
  withRing0 { uplink with state := st, desc := { uplink.desc with enable := on, receipts := true } }

theorem witness_ConfigurationByteIsClampedAndLocked_ring :
    ∀ q ∈ ([(0, 0, true, .enabling), (0, 0, true, .enabled), (0, 1, false, .disabled), (3, 0, true, .enabling),
        (3, 0, true, .enabled), (3, 0, false, .disabling), (3, 0, false, .disabled)] : List (Nat × Byte × Bool × RingState)),
      let s := switched q.2.2.1 q.2.2.2
      let b : Beat := packBeat q.1 [q.2.1]
      Offered 0x10000200 [b] s ∧ s.lif.hostShadow = [] ∧ OffTheRings s 0x10000200 [b] ∧ Ready 1 s ∧
        writtenBytes 0x10000200 [b] = [(s.areaBase + (0x200 + q.1), q.2.1)] ∧ (s.ring 0).desc.enable = q.2.2.1 ∧
        (s.ring 0).state = q.2.2.2 ∧ (s.ring 0).desc.receipts = true ∧ s.lif.prodShadow[(0 : Fin 16)] = [] ∧
        s.lif.consShadow[(0 : Fin 16)] = [] := by
  intro q h
  refine ⟨⟨rfl, ?_, rfl, ?_, by simp⟩, rfl, off_rings ?_, ⟨rfl, rfl, ?_⟩, ?_, rfl, rfl, rfl, rfl, rfl⟩
  · decide +kernel +revert
  · decide +kernel +revert
  · unfold PassesBy ClearOf NothingHeld Active Misses; decide +kernel +revert
  · decide +kernel +revert
  · decide +kernel +revert

/-- Ring 1 is ENABLED at 0x20000000; the descriptor of ring 0, DISABLED, is `d`; the part is `p`. -/
def describing (d : RingDesc) (p : PartState) : State :=
  let s := withRing0 { Ring.reset with desc := d }
  withRing 1 { uplink with desc := { uplink.desc with prodAddr := 0x20005000, consAddr := 0x20005010 } }
    { s with ccu := { s.ccu with part := p } }

/-- A descriptor of 8 slots of 256 bytes at 0x20000800 that R24 accepts beside ring 1. -/
def fitting : RingDesc :=
  { uplink.desc with enable := false, base := 0x20000800, slotSize := 256, slotCount := 8 }

/-- R24, by hand: one descriptor that each row of its table rejects, and one that passes beside a part not RUNNING. -/
theorem witness_ConfigurationByteIsClampedAndLocked_descriptor :
    ∀ q ∈ ([({ fitting with slotSize := 128 }, some .size), ({ fitting with slotCount := 4 }, some .count),
        ({ fitting with prodAddr := 0x20001002 }, some .align), ({ fitting with prodInit := 17 }, some .range),
        ({ fitting with base := 0xFFFFF900 }, some .range), ({ fitting with base := 0x1003FF00 }, some .area),
        ({ fitting with base := 0x20000700 }, some .overlap), ({ fitting with prodAddr := 0x200007FC }, some .index),
        (fitting, none)] : List (RingDesc × Option RejectCause)),
      let s := describing q.1 .suspending
      let b : Beat := packBeat 0 [1]
      Offered 0x10000200 [b] s ∧ s.lif.hostShadow = [] ∧ OffTheRings s 0x10000200 [b] ∧ Ready 1 s ∧
        writtenBytes 0x10000200 [b] = [(s.areaBase + 0x200, 1)] ∧ (s.ring 0).desc.enable = false ∧
        (s.ring 0).state = .disabled ∧ s.lif.prodShadow[(0 : Fin 16)] = [] ∧ s.lif.consShadow[(0 : Fin 16)] = [] ∧
        s.ccu.part ≠ .running ∧ causeOf s 0 = q.2 := by
  intro q h
  refine ⟨⟨rfl, ?_, rfl, ?_, by simp⟩, rfl, off_rings ?_, ⟨rfl, rfl, ?_⟩, ?_, ?_, rfl, rfl, rfl, ?_, ?_⟩
  · decide +kernel +revert
  · decide +kernel +revert
  · unfold PassesBy ClearOf NothingHeld Active Misses; decide +kernel +revert
  all_goals decide +kernel +revert

/-- Record 0 asks CLEAR_DOSE of `up`; the first `k` bytes of its tag are pending. -/
def halfTag (k : Nat) : State :=
  let q : Record := (Vector.replicate 64 0).set 0 0x31
  { up with
    lif := { up.lif with hostShadow := (wordAt 0x1008 0x04030201).take k }
    ccu := { up.ccu with commandRing := up.ccu.commandRing.set 0 q } }

/-- The last and the first bytes of the tag 0x04030201. -/
theorem witness_ConfigurationByteIsClampedAndLocked_tag :
    ∀ k ∈ ([0, 1, 3] : List Nat),
      let s := halfTag k
      let u := halfTag 0
      let last : Beat := packBeat (8 + k) (([1, 2, 3, 4] : List Byte).drop k)
      let first : Beat := packBeat 8 (([1, 2, 3, 4] : List Byte).take k)
      (Offered 0x10001000 [last] s ∧ OffTheRings s 0x10001000 [last] ∧
          commandOf (rdLe s.ccu.commandRing[(0 : Fin 256)] 0 1) = .clearDose ∧
          writtenBytes 0x10001000 [last] = (wordAt (s.areaBase + 0x1008) 0x04030201).drop k ∧
          s.lif.hostShadow = (wordAt 0x1008 0x04030201).take k) ∧
        Offered 0x10001000 [first] u ∧ OffTheRings u 0x10001000 [first] ∧
        writtenBytes 0x10001000 [first] = (wordAt (u.areaBase + 0x1008) 0x04030201).take k ∧ u.lif.hostShadow = [] := by
  intro k h
  refine ⟨⟨⟨rfl, (by decide : 0 < 16), rfl, by decide, by simp⟩, off_disabled _ _ _ up_disabled up_empty, ?_, ?_, rfl⟩,
    ⟨rfl, by decide, rfl, by decide, by simp⟩, off_disabled _ _ _ up_disabled up_empty, ?_, rfl⟩ <;> decide +kernel +revert

theorem witness_RunOnStartsInitialisation :
    let s := inPart .dormant false
    let b : Beat := packBeat 0 [1]
    Offered 0x10000000 [b] s ∧ s.lif.hostShadow = [] ∧ writtenBytes 0x10000000 [b] = [(s.areaBase, 1)] ∧ Ready 4 s ∧
      (1 : Byte) ≠ 0 ∧ s.ccu.part = .dormant ∧ s.ccu.cfg.run = false :=
  ⟨⟨rfl, by decide +kernel, rfl, by decide, by decide⟩, rfl, by decide +kernel, ⟨rfl, rfl, by decide +kernel⟩, by decide,
    rfl, rfl⟩

theorem inPart_none_held (p : PartState) (run : Bool) (r : Fin 16) : ((inPart p run).slot r).status = .empty := up_empty r

theorem witness_RunOnStartsInitialisation_off :
    let s := inPart .running true
    let b : Beat := packBeat 0 [0]
    Offered 0x10000000 [b] s ∧ s.lif.hostShadow = [] ∧ writtenBytes 0x10000000 [b] = [(s.areaBase, 0)] ∧ Ready 1 s ∧
      s.ccu.part = .running ∧ s.ccu.cfg.run = true ∧ OffTheRings s 0x10000000 [b] ∧ s.cvm.snapRunning = false ∧
      (∀ r, (s.slot r).status = .holding → (s.ring r).commit ≠ none ∧ (s.ring r).state ≠ .enabling) :=
  ⟨⟨rfl, by decide +kernel, rfl, by decide, by decide⟩, rfl, by decide +kernel, ⟨rfl, rfl, by decide +kernel⟩, rfl, rfl,
    off_disabled _ _ _ up_disabled up_empty, rfl, fun r h => by simp [inPart_none_held] at h⟩

/-- SUSPENDED, with ring 0 left ENABLED and crane 7 LIVE in context 2. -/
def suspended : State :=
  withCrane 2 { Crane.reset with st := .live, tid := 7, deadline := 5000 } (withRing 0 uplink (inPart .suspended false))

theorem witness_RunOnStartsInitialisation_again :
    let s := suspended
    let b : Beat := packBeat 0 [1]
    Offered 0x10000000 [b] s ∧ s.lif.hostShadow = [] ∧ writtenBytes 0x10000000 [b] = [(s.areaBase, 1)] ∧ Ready 4 s ∧
      (1 : Byte) ≠ 0 ∧ s.ccu.part = .suspended ∧ s.ccu.cfg.run = false ∧ s.tbs.restart = false ∧
      s.rfm.startKept = false ∧ (s.ring 0).state = .enabled ∧ s.rejection 0 = none ∧ (s.crane 2).st ≠ .unbound ∧
      (∀ q, q ≠ 0 → (s.ring q).state = .disabled ∧ (s.ring q).desc.enable = false) :=
  ⟨⟨rfl, by decide +kernel, rfl, by decide, by decide⟩, rfl, by decide +kernel, ⟨rfl, rfl, by decide +kernel⟩, by decide,
    rfl, rfl, rfl, rfl, rfl, by decide +kernel, by decide +kernel, by decide +kernel⟩

theorem uplink_others (q : Fin 16) (h : q ≠ 0) : ((withRing0 uplink).ring q).state = .disabled := by
  revert q; decide +kernel

theorem uplink_empty (r : Fin 16) : ((withRing0 uplink).slot r).status = .empty := by revert r; decide +kernel

/-- The value 0, the last and the first beyond the slot count; the word whole, and with 1 and 3 of its bytes held before. -/
theorem witness_WholeProducerWriteIsHeldAndCommits :
    ∀ nk ∈ ([(0, 0), (8, 0), (9, 0), (0, 1), (8, 3), (9, 3)] : List (Byte × Nat)),
      let v : Word := BitVec.ofNat 32 nk.1.toNat
      let early : List Nat := if nk.2 = 0 then [] else [4]
      let s := withSlot 0 (if nk.2 = 0 then .empty else { HeldSlot.empty with
        status := .holding, withheld := early, pend := (wordBytes v).take nk.2, lastInit := 3 }) (withRing0 uplink)
      let b : Beat := packBeat nk.2 (([nk.1, 0, 0, 0] : List Byte).drop nk.2)
      let w := writtenBytes 0x20001000 [b]
      Offered 0x20001000 [b] s ∧ nk.2 < 4 ∧ early.length < 16 ∧ w = (wordAt (s.ring 0).desc.prodAddr v).drop nk.2 ∧
        s.ccu.part = .running ∧ (s.ring 0).state = .enabled ∧ (s.ring 0).desc.dir = .uplink ∧
        (s.ring 0).desc.receipts = true ∧ (s.ring 0).commit = none ∧ OutsideArea s w ∧ NoRewrite s 0x20001000 [b] ∧
        (∀ q, q ≠ 0 → ClearOf s w q ∧ NothingHeld s w q) ∧
        Misses (s.ring 0).desc.base ((s.ring 0).desc.slotCount * (s.ring 0).desc.slotSize) w ∧
        Misses (s.ring 0).desc.consAddr 4 w := by
  intro nk h
  refine ⟨⟨rfl, by simp [withSlot, withRing0, withRing, up, State.reset, Lif.reset], rfl, by decide, by simp⟩, ?_, ?_, ?_, rfl,
    rfl, rfl, rfl, rfl, ?_, no_rewrite_uplink _ _ _ fun r => ?_, ?_, ?_, ?_⟩
  · decide +kernel +revert
  · decide +kernel +revert
  · decide +kernel +revert
  · unfold OutsideArea InHostPage InPartPage; decide +kernel +revert
  · decide +kernel +revert
  · unfold ClearOf NothingHeld Active Misses; decide +kernel +revert
  · unfold Misses; decide +kernel +revert
  · unfold Misses; decide +kernel +revert

theorem witness_WholeProducerWriteIsHeldAndCommits_clauses :
    let s := withRing0 uplink
    let near (v w : Word) : Bool := decide ((v - w).toNat ≤ (s.ring 0).desc.slotCount)
    (0 : Word) = (s.ring 0).prod ∧ (8 : Word) ≠ (s.ring 0).prod ∧ near 8 (s.ring 0).prod = true ∧
      near 8 (s.ring 0).cons = true ∧ (9 : Word) ≠ (s.ring 0).prod ∧ near 9 (s.ring 0).prod = false ∧
      s.lif.injQueue.length < 16 := by decide +kernel

/-- Ring 0 has committed three slots; none is released. -/
def filled : State := withRing0 { uplink with prod := 3 }

theorem filled_up (r : Fin 16) : (filled.ring r).state = .disabled ∨ (filled.ring r).desc.dir = .uplink := by
  revert r; decide +kernel

theorem filled_others (q : Fin 16) (h : q ≠ 0) : (filled.ring q).state = .disabled := by revert q; decide +kernel

/-- The word whole, and its last and first bytes with 1 and 3 of them pending, or none. -/
theorem witness_ConsumerValueIsTested :
    ∀ q ∈ ([(0, true), (1, true), (3, true), (1, false), (3, false)] : List (Nat × Bool)),
      let part (l : List Byte) : List Byte := if q.2 then l.drop q.1 else l.take q.1
      let s : State := { filled with lif := { filled.lif with
        consShadow := if q.2 then filled.lif.consShadow.set 0 ((wordBytes 3).take q.1) else filled.lif.consShadow } }
      let b : Beat := packBeat (if q.2 then q.1 else 0) (part [3, 0, 0, 0])
      let w := writtenBytes 0x20001010 [b]
      Offered 0x20001010 [b] s ∧ q.1 < 4 ∧ Active s 0 ∧ (s.ring 0).state ≠ .enabling ∧
        w = (if q.2 then (wordAt (s.ring 0).desc.consAddr 3).drop q.1 else (wordAt (s.ring 0).desc.consAddr 3).take q.1) ∧
        s.lif.consShadow[(0 : Fin 16)] = (if q.2 then (wordBytes 3).take q.1 else []) ∧ OutsideArea s w ∧
        NoRewrite s 0x20001010 [b] ∧ (∀ r, r ≠ 0 → ClearOf s w r) ∧ (∀ r, NothingHeld s w r) ∧
        Misses (s.ring 0).desc.base ((s.ring 0).desc.slotCount * (s.ring 0).desc.slotSize) w ∧
        Misses (s.ring 0).desc.prodAddr 4 w := by
  intro q h
  refine ⟨⟨rfl, by simp [filled, withRing0, withRing, up, State.reset, Lif.reset], rfl, by decide, by simp⟩, ?_,
    ⟨.inr (.inl rfl), .inl rfl⟩, (by decide : RingState.enabled ≠ .enabling), ?_, ?_, ?_, no_rewrite_uplink _ _ _ filled_up,
    fun r h => clear_of_disabled _ _ r (filled_others r h), nothing_held _ _ up_empty, ?_, ?_⟩
  · decide +kernel +revert
  · decide +kernel +revert
  · decide +kernel +revert
  · unfold OutsideArea InHostPage InPartPage; decide +kernel +revert
  · unfold Misses; decide +kernel +revert
  · unfold Misses; decide +kernel +revert

/-- The report writer's indices of `up`; a digest is owed. -/
def indexed (done ev dg : Word) : State :=
  { up with
    rpw := { up.rpw with done := done, evProd := ev, dgProd := dg }
    rfm := { up.rfm with pendingCount := 1 } }

theorem witness_ConsumerValueIsTested_index (k : Fin 3) (done ev dg : Word) :
    let addr : Word := 0x10005000
    let b : Beat := packBeat (4 * k.val) [0, 4, 0, 0]
    let s := indexed done ev dg
    Offered addr [b] s ∧ s.lif.hostShadow = [] ∧ OffTheRings s addr [b] ∧
      writtenBytes addr.toNat [b] = wordAt (s.areaBase + 0x5000 + 4 * k.val) 0x400 ∧ s.ccu.part ≠ .dormant ∧
      s.ccu.part ≠ .initialising := by
  refine ⟨⟨rfl, by simp [indexed, up, State.reset, Lif.reset], rfl, by decide, by simp⟩, rfl,
    off_disabled _ _ _ up_disabled up_empty, ?_, by simp [indexed, up], by simp [indexed, up]⟩
  have base : (indexed done ev dg).areaBase = 0x10000000 := up_base
  rw [base]
  revert k
  decide +kernel

/-- The last bytes of a word of the index page, the first 1 and 3 pending. -/
theorem witness_ConsumerValueIsTested_index_parts (k : Fin 3) : ∀ n ∈ ([1, 3] : List Nat),
    let u := indexed 0x300 0x800 0x800
    let s : State := { u with lif := { u.lif with hostShadow := (wordAt (0x5000 + 4 * k.val) 0x400).take n } }
    let b : Beat := packBeat (4 * k.val + n) (([0, 4, 0, 0] : List Byte).drop n)
    Offered 0x10005000 [b] s ∧ n < 4 ∧ OffTheRings s 0x10005000 [b] ∧
      writtenBytes 0x10005000 [b] = (wordAt (s.areaBase + 0x5000 + 4 * k.val) 0x400).drop n := by
  intro n h
  refine ⟨⟨rfl, by simp [indexed, up, State.reset, Lif.reset], rfl, by decide, by simp⟩, ?_,
    off_disabled _ _ _ up_disabled up_empty, ?_⟩ <;> decide +kernel +revert

theorem witness_ConsumerValueIsTested_index_clauses :
    let v : Word := 0x400
    ((v - (indexed 0x300 0 0).rpw.done).toNat ≤ 256 ∧ (indexed 0x300 0 0).rpw.exec = .idle) ∧
      ¬((v - (indexed 0x2FF 0 0).rpw.done).toNat ≤ 256) ∧ ((indexed 0 0x800 0).rpw.evProd - v).toNat ≤ 1024 ∧
      1024 < ((indexed 0 0x801 0).rpw.evProd - v).toNat ∧ ((indexed 0 0 0x800).rpw.dgProd - v).toNat ≤ 1024 ∧
      1024 < ((indexed 0 0 0x3FF).rpw.dgProd - v).toNat := by decide +kernel

theorem witness_ProducerWriteIsCaptured :
    let s := withRing0 uplink
    let w := writtenBytes 0x20000700 [full 5]
    Offered 0x20000700 [full 5] s ∧ w ≠ [] ∧ s.ccu.part = .running ∧ (s.ring 0).state = .enabled ∧
      (s.ring 0).desc.dir = .uplink ∧ (s.ring 0).desc.prodInit = 16 ∧ 7 < (s.ring 0).desc.slotCount ∧
      256 ≤ (s.ring 0).desc.slotSize ∧
      (∀ ab ∈ w, (s.ring 0).desc.base + 7 * (s.ring 0).desc.slotSize ≤ ab.1 ∧
        ab.1 < (s.ring 0).desc.base + 7 * (s.ring 0).desc.slotSize + 256) ∧
      (BitVec.ofNat 32 7 - (s.ring 0).prod).toNat % (s.ring 0).desc.slotCount <
        (s.ring 0).desc.slotCount - ((s.ring 0).prod - (s.ring 0).cons).toNat ∧
      mapGet (s.ring 0).slotMap 7 = none ∧ (s.buffer 0).st = .free ∧ (∀ c : Fin 64, c < 0 → (s.buffer c).st ≠ .free) ∧
      OutsideArea s w ∧ NoRewrite s 0x20000700 [full 5] ∧ (∀ q, q ≠ 0 → ClearOf s w q) ∧ (∀ q, NothingHeld s w q) ∧
      Misses (s.ring 0).desc.prodAddr 4 w ∧ Misses (s.ring 0).desc.consAddr 4 w := by
  refine ⟨⟨rfl, by decide, rfl, by decide, by decide⟩, by decide +kernel, rfl, rfl, rfl, rfl, by decide +kernel,
    by decide +kernel, by decide +kernel, by decide +kernel, rfl, rfl, fun c h => absurd h (by simp), ?_,
    no_rewrite_uplink _ _ _ (by decide +kernel), fun q h => clear_of_disabled _ _ q (uplink_others q h),
    nothing_held _ _ uplink_empty, ?_, ?_⟩
  · unfold OutsideArea InHostPage InPartPage; decide +kernel
  · unfold Misses; decide +kernel
  · unfold Misses; decide +kernel

theorem witness_ReadIsForwarded :
    up.pins.inReset = false ∧ up.lif.forwardPath.length < 16 ∧ up.lif.injWaiting = [] ∧
      (0xFFFFFFF0 : Word).toNat % 16 = 0 ∧ 1 ≤ 16 := by decide +kernel

/-- The links of `up` are `l`. -/
def linked (l : Lif) : State := { up with lif := l }

/-- A forwarded write, and an injected one of the report writer, ordered or not. -/
def fwd : FwdTxn := plainWrite 3 0x30000000 [full 1]
def inj (ordered : Bool) : InjEntry :=
  { block := .rpw, addr := 0x10008010, isRead := false, beats := [full 2], ordered := ordered, eventMark := false,
    tag := .plain }

theorem witness_ArbiterSharesTheDlink_forward :
    let s := linked { Lif.reset with forwardPath := [fwd], injQueue := [inj false], arbCount := 3 }
    s.pins.inReset = false ∧ s.lif.injWaiting = [] ∧ s.lif.forwardPath = fwd :: [] ∧ s.lif.injQueue = inj false :: [] ∧
      (inj false).ordered = false ∧ s.lif.arbCount < s.ccu.cfg.passShare := by decide +kernel

theorem witness_ArbiterSharesTheDlink_injection :
    let s := linked { Lif.reset with forwardPath := [fwd], injQueue := [inj true], arbCount := 4 }
    s.pins.inReset = false ∧ s.lif.injWaiting = [] ∧ s.lif.forwardPath = fwd :: [] ∧ s.lif.injQueue = inj true :: [] ∧
      (∀ q ∈ s.lif.injInFlight, q.isRead = true) ∧ s.ccu.cfg.passShare ≤ s.lif.arbCount := by decide +kernel

theorem witness_ArbiterSharesTheDlink_injection_alone :
    let s := linked { Lif.reset with injQueue := [inj false] }
    s.pins.inReset = false ∧ s.lif.injWaiting = [] ∧ s.lif.forwardPath = [] ∧ s.lif.injQueue = inj false :: [] ∧
      (inj false).ordered = false := by decide +kernel

theorem witness_ArbiterSharesTheDlink_ordered_waits :
    let s := linked { Lif.reset with forwardPath := [fwd], injQueue := [inj true], injInFlight := [inj false] }
    s.pins.inReset = false ∧ s.lif.injWaiting = [] ∧ s.lif.forwardPath = fwd :: [] ∧ s.lif.injQueue = inj true :: [] ∧
      ¬((inj true).ordered = false ∨ ∀ q ∈ s.lif.injInFlight, q.isRead = true) := by decide +kernel

/-- Sixteen entries fill the queue; `op` of block `b` waits first for a place, and two more behind it. -/
def waiting (b : Block) (op : InjOp) : State :=
  let s := linked { Lif.reset with
    injQueue := List.replicate 16 (inj false)
    injWaiting := [(b, op), (b, .ringRecord 2), (.tdr, .ringRecord 3)] }
  { s with rpw := { s.rpw with exec := .executing } }

theorem witness_ArbiterSharesTheDlink_waiting (b : Block) (op : InjOp) :
    let s := waiting b op
    s.pins.inReset = false ∧ s.lif.forwardPath = [] ∧ s.lif.injQueue = inj false :: List.replicate 15 (inj false) ∧
      s.lif.injQueue.length = 16 ∧ (inj false).ordered = false ∧
      s.lif.injWaiting = (b, op) :: [(b, .ringRecord 2), (.tdr, .ringRecord 3)] ∧ s.rpw.exec = .executing ∧
      (∀ q ∈ s.rpw.events, q.ofCommand = false) :=
  ⟨rfl, rfl, rfl, rfl, rfl, rfl, rfl, fun _ h => absurd h (List.not_mem_nil)⟩

theorem witness_MemoryAnswerReachesTheInitiator :
    let s := linked { Lif.reset with fwdInFlight := [fwd] }
    s.pins.inReset = false ∧ s.lif.injWaiting = [] ∧ s.lif.fwdInFlight[0]? = some fwd ∧
      (fwd.isRead = true → ([] : List (BitVec 128)).length = fwd.burst) ∧ fwd.direct = true := by decide +kernel

/-- The early part of held transaction 4 at memory; its slot withholds it, or no more. -/
def early : FwdTxn := { fwd with direct := false, held := [4] }
def heldParts (withheld : List Nat) : State :=
  withSlot 0 { HeldSlot.empty with status := .holding, withheld := withheld }
    (linked { Lif.reset with fwdInFlight := [early], heldTxns := [{ id := 4, initiator := 9, err := true }] })

theorem witness_MemoryAnswerReachesTheInitiator_held :
    let s := heldParts [4]
    let u := heldParts []
    (s.pins.inReset = false ∧ s.lif.injWaiting = [] ∧ s.lif.fwdInFlight[0]? = some early ∧ early.isRead = false ∧
        early.direct = false ∧ early.held = [4] ∧ ∃ r, 4 ∈ (s.slot r).withheld ∨ 4 ∈ (s.slot r).joined) ∧
      u.lif.fwdInFlight[0]? = some early ∧
      ¬((∃ r, 4 ∈ (u.slot r).withheld ∨ 4 ∈ (u.slot r).joined) ∨ (∃ t ∈ u.lif.forwardPath, 4 ∈ t.held) ∨
        ∃ t ∈ u.lif.fwdInFlight.eraseIdx 0, 4 ∈ t.held) ∧
      (u.lif.heldTxns.find? fun h => h.id == 4) = some { id := 4, initiator := 9, err := true } := by decide +kernel

/-- A receipt of ring 0 at memory. -/
def receiptOut : InjEntry := { inj false with block := .rmn, tag := .receipt 0 0 }

/-- Ring 0 has one receipt outstanding and no slot left to commit to `target`. -/
def receipting (target : Word) : State :=
  { withRing0 { uplink with prod := 3, outstanding := 1, commit := some { target := target, byRequest := true } } with
    lif := { Lif.reset with injInFlight := [receiptOut] } }

theorem witness_ReceiptAnswerCountsDown :
    let s := receipting 4
    s.pins.inReset = false ∧ s.lif.injWaiting = [] ∧ s.lif.injInFlight[0]? = some receiptOut ∧
      receiptOut.isRead = false ∧ receiptOut.tag = .receipt 0 (s.ring 0).gen ∧
      (∀ c, (s.ring 0).commit = some c → (s.ring 0).prod ≠ c.target ∨ 2 ≤ (s.ring 0).outstanding) := by
  refine ⟨rfl, rfl, rfl, rfl, rfl, ?_⟩
  rintro c ⟨⟩
  exact .inl (by decide +kernel)

/-- The last receipt of a held write of ring 0 at memory. -/
def lastReceipt : State :=
  withSlot 0 { HeldSlot.empty with status := .committing, withheld := [0], target := some 3, lastInit := 5 } (receipting 3)

theorem witness_LastReceiptReleasesTheHeldWrite :
    let s := lastReceipt
    s.pins.inReset = false ∧ s.lif.injWaiting = [] ∧ s.lif.injInFlight[0]? = some receiptOut ∧
      receiptOut.isRead = false ∧ receiptOut.tag = .receipt 0 (s.ring 0).gen ∧ (s.ring 0).outstanding = 1 ∧
      (s.ring 0).commit = some { target := (s.ring 0).prod, byRequest := true } ∧ (s.slot 0).status = .committing ∧
      (s.slot 0).pend = [] ∧ (s.slot 0).target = some (s.ring 0).prod ∧
      (∀ q, q ≠ 0 → (s.ring q).desc.prodAddr = (s.ring 0).desc.prodAddr → (s.slot q).status = .empty) :=
  ⟨rfl, rfl, rfl, rfl, rfl, rfl, rfl, rfl, rfl, rfl, by decide +kernel⟩

/-- One entry of the report writer's at memory. -/
def answering (tag : InjTag) : InjEntry := { inj false with tag := tag }

theorem witness_WriteAnswersPublish (tag : InjTag) :
    let s := linked { Lif.reset with injInFlight := [answering tag] }
    s.lif.injInFlight[0]? = some (answering tag) ∧ (answering tag).isRead = false ∧ Ready 1 s ∧
      (answering tag).tag = tag := ⟨rfl, rfl, ⟨rfl, rfl, by simp [linked, Lif.reset]⟩, rfl⟩

/-- A read of the CCU or the RMN at memory. -/
def reading (tag : InjTag) : InjEntry := { inj false with isRead := true, beats := [], tag := tag }

theorem witness_IndexReadKeepsItsWord :
    let s := linked { Lif.reset with injInFlight := [reading (.initRead 2)] }
    s.pins.inReset = false ∧ s.lif.injWaiting = [] ∧ s.lif.injInFlight[0]? = some (reading (.initRead 2)) ∧
      (reading (.initRead 2)).isRead = true ∧ (reading (.initRead 2)).eventMark = false ∧
      (reading (.initRead 2)).tag = .initRead 2 := by decide +kernel

/-- Ring 0 is ENABLING, its producer word read as 9; the consumer read is at memory. -/
def enabling : State :=
  { withRing0 { uplink with state := .enabling, baseP := some 9 } with
    lif := { Lif.reset with injInFlight := [reading (.baseline 0 0 true)] } }

theorem witness_BaselineEnablesTheRing :
    let s := enabling
    Ready 1 s ∧ s.lif.injInFlight[0]? = some (reading (.baseline 0 0 true)) ∧
      (reading (.baseline 0 0 true)).isRead = true ∧
      (reading (.baseline 0 0 true)).tag = .baseline 0 (s.ring 0).gen true ∧ s.ccu.part = .running ∧
      (s.ring 0).state = .enabling ∧ (s.ring 0).baseP = some 9 ∧ (s.ring 0).keptC = none ∧ s.slot 0 = .empty ∧
      ((9 : Word) - (1 : BitVec 128).extractLsb' (8 * ((s.ring 0).desc.consAddr % 16)) 32).toNat ≤
        (s.ring 0).desc.slotCount :=
  ⟨⟨rfl, rfl, by decide +kernel⟩, rfl, rfl, rfl, rfl, rfl, rfl, rfl, rfl, by decide +kernel⟩

/-! ## Witnesses: rings and frames -/

theorem witness_DisablingEnds :
    let s := withRing0 { uplink with state := .disabling, desc := { uplink.desc with enable := false } }
    Ready 1 s ∧ (s.ring 0).state = .disabling ∧ (s.ring 0).commit = none ∧ (s.ring 0).outstanding = 0 ∧
      s.baselineOut 0 = false ∧ (s.ring 0).desc.enable = false ∧ s.slot 0 = .empty :=
  ⟨⟨rfl, rfl, by decide +kernel⟩, rfl, rfl, rfl, rfl, rfl, rfl⟩

/-- A commit of ring 0 to index 1 is in progress. -/
def committing : Ring := { uplink with commit := some { target := 1, byRequest := true } }

/-- Slot 0 of ring 0 holds nothing, or is MISSED at its index or at another. -/
theorem witness_UncapturedSlotCommits :
    ∀ m ∈ ([[], [(0, .missed .exhausted 0)], [(0, .missed .foreign 0)], [(0, .missed .foreign 8)]] :
        List (List (Nat × SlotEntry))),
      let s := withRing0 { committing with slotMap := m }
      Ready 1 s ∧ s.working = true ∧ (s.ring 0).state = .enabled ∧ (s.ring 0).desc.dir = .uplink ∧
        (s.ring 0).desc.receipts = true ∧ (s.ring 0).commit = some { target := 1, byRequest := true } ∧
        (s.ring 0).prod ≠ 1 ∧ 0 ∉ s.rmn.paused ∧ (s.ring 0).prod = 0 ∧ (s.ring 0).slotMap = m ∧
        (s.ring 0).prod.toNat % (s.ring 0).desc.slotCount = 0 := by
  intro m h
  refine ⟨⟨rfl, rfl, ?_⟩, rfl, rfl, rfl, rfl, rfl, ?_, ?_, rfl, rfl, rfl⟩ <;> decide +kernel +revert

/-- A frame of kind `kind` of terminal 7, sequence 0x0102, length 32. -/
def frame (kind : Byte) : Vector Byte 256 :=
  Vector.ofFn fun i =>
    ([0x5A, 1, 7, 0, kind, 0, 2, 1, 32, 0, 0, 0, 0x10, 0, 0, 0, 0, 0, 0, 0, 0xFF, 0xFF, 3, 20] : List Byte)[i.val]?.getD 0

/-- Slot 0 of ring 0 holds frame `f` in buffer 0, and its commit is in progress. -/
def captured (f : Frame) : State :=
  let s := withRing0 { committing with slotMap := [(0, .filling 0 0)] }
  { s with rmn := { s.rmn with
    buffers := s.rmn.buffers.set 0 { st := .filling 0 0 0, bytes := f } } }

theorem witness_AcceptedFrameIsDispatched (f : Frame) :
    let s := captured f
    Ready 1 s ∧ s.working = true ∧ (s.ring 0).state = .enabled ∧ (s.ring 0).desc.dir = .uplink ∧
      (s.ring 0).desc.receipts = true ∧ (s.ring 0).commit = some { target := 1, byRequest := true } ∧
      (s.ring 0).prod ≠ 1 ∧ 0 ∉ s.rmn.paused ∧
      mapGet (s.ring 0).slotMap ((s.ring 0).prod.toNat % (s.ring 0).desc.slotCount) =
        some (.filling 0 (s.ring 0).prod) ∧
      (s.buffer 0).st = .filling 0 ((s.ring 0).prod.toNat % (s.ring 0).desc.slotCount) (s.ring 0).prod ∧
      (s.buffer 0).bytes = f ∧ s.rmn.dispatch.length < 32 :=
  ⟨⟨rfl, rfl, (by decide : 0 + 1 ≤ 16)⟩, rfl, rfl, rfl, rfl, rfl, (by decide : (0 : Word) ≠ 1),
    (by decide : (0 : Fin 16) ∉ []), rfl, rfl, rfl, (by decide : 0 < 32)⟩

/-- The tests of R37 in their order, by hand: one frame that each of them stops, and one that passes. -/
theorem witness_AcceptedFrameIsDispatched_verdicts :
    let c := { Cfg.reset with version := 1 }
    let d := { RingDesc.reset with slotSize := 256, receipts := true }
    verdictOf c d (frame 5) = (1, 0) ∧ verdictOf c d ((frame 5).set 0 0) = (2, 1) ∧
      verdictOf c d ((frame 5).set 1 2) = (2, 2) ∧ verdictOf c d ((frame 5).set 8 241) = (2, 3) ∧
      verdictOf c { d with check := true } (frame 5) = (2, 4) ∧ verdictOf c d (frame 4) = (2, 5) ∧
      verdictOf { c with domainCheck := true, domain := 1 } d (frame 5) = (3, 0) ∧ verdictOf c d (frame 2) = (4, 0) := by
  decide +kernel

theorem witness_AcceptedFrameIsDispatched_paused :
    let u := captured (frame 5)
    let s : State := { u with rmn := { u.rmn with
      dispatch := List.replicate 32 { ring := 0, index := 0, runTime := 0, buf := 1 } } }
    verdictOf s.ccu.cfg (s.ring 0).desc (s.buffer 0).bytes = (1, 0) ∧ 0 ∉ s.rmn.paused ∧ 32 ≤ s.rmn.dispatch.length := by
  decide +kernel

/-- The commit of ring 0 is paused, and that of ring 5 behind it; a frame of no terminal heads `n` more in the dispatch queue. -/
def resuming (n : Nat) : State :=
  let u := captured (frame 5)
  let head : DispatchEntry := { ring := 1, index := 0, runTime := 0, buf := 1 }
  { u with rmn := { u.rmn with
    buffers := u.rmn.buffers.set 1 { st := .queued, bytes := (frame 5).set 2 0 }
    dispatch := head :: List.replicate n { head with buf := 2 }, paused := [0, 5] } }

theorem witness_AcceptedFrameIsDispatched_resumed (n : Nat) :
    let s := resuming n
    let head : DispatchEntry := { ring := 1, index := 0, runTime := 0, buf := 1 }
    Ready 1 s ∧ s.working = true ∧ s.rmn.dispatch = head :: List.replicate n { head with buf := 2 } ∧
      s.rmn.handling = none ∧ s.rmn.paused = 0 :: [5] ∧ s.ccu.cfg.coverageEn = false ∧
      s.buffer head.buf = { st := .queued, bytes := (frame 5).set 2 0 } ∧ 5 ≤ frameKind ((frame 5).set 2 0) ∧
      frameTid ((frame 5).set 2 0) = 0 ∧ (s.ring 0).desc.receipts = true ∧ (0 : Fin 64) ≠ head.buf ∧
      mapGet (s.ring 0).slotMap ((s.ring 0).prod.toNat % (s.ring 0).desc.slotCount) =
        some (.filling 0 (s.ring 0).prod) ∧
      (s.buffer 0).st = .filling 0 ((s.ring 0).prod.toNat % (s.ring 0).desc.slotCount) (s.ring 0).prod :=
  ⟨⟨rfl, rfl, (by decide : 0 + 1 ≤ 16)⟩, rfl, rfl, rfl, rfl, rfl, rfl, by decide +kernel, by decide +kernel, rfl,
    (by decide : (0 : Fin 64) ≠ 1), rfl, rfl⟩

/-- Downlink ring 0 commits to index 1; slot 0's record is `m`. -/
def downCommitting (m : List (Nat × SlotEntry)) : State :=
  withRing0 { downlink with slotMap := m, commit := some { target := 1, byRequest := false } }

theorem witness_DownlinkSlotCommits :
    let s := downCommitting []
    s.pins.inReset = false ∧ s.lif.injWaiting = [] ∧ s.working = true ∧ (s.ring 0).state = .enabled ∧
      (s.ring 0).desc.dir = .downlink ∧ (s.ring 0).commit = some { target := 1, byRequest := false } ∧
      (s.ring 0).prod ≠ 1 ∧ (s.ring 0).outstanding = 0 ∧ s.rmn.midway[(0 : Fin 16)] = none ∧
      mapGet (s.ring 0).slotMap ((s.ring 0).prod.toNat % (s.ring 0).desc.slotCount) = none :=
  ⟨rfl, rfl, rfl, rfl, rfl, rfl, by decide +kernel, rfl, rfl, rfl⟩

theorem witness_DownlinkSlotCommits_skipped :
    let s := downCommitting [(0, .skipped .order none 0)]
    s.pins.inReset = false ∧ s.lif.injWaiting = [] ∧ s.working = true ∧ (s.ring 0).state = .enabled ∧
      (s.ring 0).desc.dir = .downlink ∧ (s.ring 0).commit = some { target := 1, byRequest := false } ∧
      (s.ring 0).prod ≠ 1 ∧ (s.ring 0).outstanding = 0 ∧ s.rmn.midway[(0 : Fin 16)] = none ∧ RoomForEvents .rmn 1 s ∧
      mapGet (s.ring 0).slotMap ((s.ring 0).prod.toNat % (s.ring 0).desc.slotCount) =
        some (.skipped .order none (s.ring 0).prod) :=
  ⟨rfl, rfl, rfl, rfl, rfl, rfl, by decide +kernel, rfl, rfl, by decide +kernel⟩

/-- `s` with `n` entries in the injection queue, `m` events of the ring monitor owed, and the commit of ring 0 held at `h`. -/
def crowded (n m : Nat) (h : Option Midway) (s : State) : State :=
  withMidway 0 h { s with
    lif := { s.lif with injQueue := List.replicate n (inj false) }
    rpw := { s.rpw with events := List.replicate m (event .rmn .ringHigh .ring 0 0 0 0) } }

theorem crowded_room (n m k : Nat) (h : Option Midway) (s : State) :
    RoomForEvents .rmn k (crowded n m h s) ↔ n + m + k ≤ 16 := by
  simp only [RoomForEvents, crowded, withMidway, List.length_replicate, List.countP_replicate, event, beq_self_eq_true, if_true]

/-- Places left for the events of one step and the next: none, one, two; and for those of the step before. -/
theorem witness_DownlinkSlotCommits_room (h : Option Midway) (s : State) :
    ¬RoomForEvents .rmn 1 (crowded 15 1 h s) ∧ RoomForEvents .rmn 1 (crowded 14 1 h s) ∧
      ¬RoomForEvents .rmn 2 (crowded 14 1 h s) ∧ RoomForEvents .rmn 2 (crowded 14 0 h s) ∧
      RoomForEvents .rmn 0 (crowded 15 1 h s) ∧ ¬RoomForEvents .rmn 0 (crowded 16 1 h s) := by
  simp only [crowded_room]; decide

theorem witness_DownlinkSlotCommits_held (n m : Nat) (h : Option Midway) (e : List (Nat × SlotEntry)) :
    let s := crowded n m h (downCommitting e)
    s.pins.inReset = false ∧ s.lif.injWaiting = [] ∧ s.working = true ∧ (s.ring 0).state = .enabled ∧
      (s.ring 0).desc.dir = .downlink ∧ (s.ring 0).commit = some { target := 1, byRequest := false } ∧
      (s.ring 0).prod ≠ 1 ∧ (s.ring 0).outstanding = 0 ∧ s.rmn.midway[(0 : Fin 16)] = h ∧ (s.ring 0).slotMap = e ∧
      (s.ring 0).prod = 0 := ⟨rfl, rfl, rfl, rfl, rfl, rfl, (by decide : (0 : Word) ≠ 1), rfl, rfl, rfl, rfl⟩

/-- R98: one REWRITE_SKIPPED for a slot; the commit held behind it is given up by an extension to P, and a later commit takes
the slot from its beginning. -/
theorem test_skip_is_raised_once :
    let s := extendCommit 0 0 false { target := 1, byRequest := false } (crowded 15 1
      (some { runTime := 3, measured := false, told := true, givenUp := false })
      (downCommitting [(0, .skipped .order none 0)]))
    (match exec (.downlinkSlotCommit 0) (extendCommit 0 1 false { target := 0, byRequest := false } s) with
      | .next t => decide ((t.ring 0).prod = 1 ∧ t.rpw.events.length = 1)
      | _ => false) = true := by
  decide +kernel

/-- The header facts of a command to terminal 7; its length lies in the slot, or not. -/
def facts (len : Nat) : Facts := { tid := 7, seq := 0x0102, len := len }

/-- Slot 0's record is `e`, tracker 5 is in state `st`, and crane 7 is LIVE in context 2 with one command pending. -/
def commanded (st : TrackState) (len : Nat) (e : SlotEntry) : State :=
  let s := withCrane 2 { Crane.reset with st := .live, tid := 7, cmds := [{ seq := 0x0101, stamp := 0 }] }
    (withEntry 0 { Terminal.reset with st := .registered, id := 7, ctx := some 2 } (downCommitting [(0, e)]))
  { s with rmn := { s.rmn with trackers := s.rmn.trackers.set 5 { Tracker.reset with st := st, facts := facts len } } }

theorem witness_DownlinkSlotCommits_commands (st : TrackState) (len : Nat) (e : SlotEntry) :
    let s := commanded st len e
    s.pins.inReset = false ∧ s.lif.injWaiting = [] ∧ s.working = true ∧ (s.ring 0).state = .enabled ∧
      (s.ring 0).desc.dir = .downlink ∧ (s.ring 0).commit = some { target := 1, byRequest := false } ∧
      (s.ring 0).prod ≠ 1 ∧ (s.ring 0).outstanding = 0 ∧ s.lif.injQueue.length < 16 ∧
      mapGet (s.ring 0).slotMap ((s.ring 0).prod.toNat % (s.ring 0).desc.slotCount) = some e ∧ (s.tracker 5).st = st ∧
      (s.tracker 5).facts = facts len ∧ (s.ring 0).desc.slotSize = 256 ∧ s.findTerm (facts len).tid = some 0 ∧
      (s.entry 0).ctx = some 2 ∧ (s.crane 2).st ≠ .unbound ∧
      (∀ q ∈ (s.crane 2).cmds, q.seq ≠ (facts len).seq ∧ q.stamp ≤ s.tbs.runClock) :=
  ⟨rfl, rfl, rfl, rfl, rfl, rfl, by simp [commanded, downCommitting, withRing0, withRing, withCrane, withEntry, State.ring,
      downlink, uplink, Ring.reset], rfl, by simp [commanded, downCommitting, withRing0, withRing, withCrane, withEntry, up,
      State.reset, Lif.reset], rfl, rfl, rfl, rfl,
    (rfl : _ = (commanded .free 32 (.passed 0)).findTerm 7).trans (by decide +kernel), rfl, (by decide : CraneState.live ≠ .unbound),
    (by decide : ∀ q ∈ [({ seq := 0x0101, stamp := 0 } : PendingCmd)], q.seq ≠ 0x0102 ∧ q.stamp ≤ 0)⟩

theorem witness_DownlinkSlotCommits_unknown :
    let s := downCommitting [(0, .skipped .partialBeat (some (facts 256)) 0)]
    mapGet (s.ring 0).slotMap ((s.ring 0).prod.toNat % (s.ring 0).desc.slotCount) =
        some (.skipped .partialBeat (some (facts 256)) (s.ring 0).prod) ∧ (s.ring 0).desc.slotSize = 256 ∧
      s.findTerm (facts 256).tid = none := by decide +kernel

/-- The head of the dispatch queue of `s`, and `s` with frame `f` behind it in buffer 0. -/
def headEntry : DispatchEntry := { ring := 0, index := 0, runTime := 40, buf := 0 }
def queued (f : Frame) (s : State) : State :=
  { s with rmn := { s.rmn with
    buffers := s.rmn.buffers.set 0 { st := .queued, bytes := f }
    dispatch := [headEntry] } }

/-- Terminal 7, a crane bound to context 2, at entry 0; the head of the dispatch queue is a frame of kind `kind`. -/
def dispatching (kind : Byte) (c : Cfg) (last : BitVec 16) : State :=
  let s := withCrane 2 { Crane.reset with
      st := .live, tid := 7, deadline := 5000, lastSeq := some last, window := 4, countdown := some 0 }
    (withEntry 0 { Terminal.reset with st := .registered, id := 7, ctx := some 2, homeBin := some 3 } up)
  queued (frame kind) { s with ccu := { s.ccu with cfg := c } }

theorem dispatching_dispatches (kind : Byte) (c : Cfg) (last : BitVec 16) :
    Dispatches headEntry [] (dispatching kind c last) := ⟨rfl, rfl, rfl, rfl, rfl, rfl⟩

theorem witness_DispatchedFrameTouchesItsEntry :
    let s := dispatching 5 .reset 0
    let f := (s.buffer 0).bytes
    Dispatches headEntry [] s ∧ s.ccu.cfg.coverageEn = false ∧ 5 ≤ frameKind f ∧ s.findTerm (frameTid f) = some 0 :=
  ⟨dispatching_dispatches _ _ _, rfl, by decide +kernel, by decide +kernel⟩

theorem witness_DispatchedFrameTouchesItsEntry_learned :
    let s := queued (frame 255) up
    let f := (s.buffer 0).bytes
    Dispatches headEntry [] s ∧ s.ccu.cfg.coverageEn = false ∧ 5 ≤ frameKind f ∧ frameTid f ≠ 0 ∧ frameTid f ≠ 0xFFFF ∧
      s.findTerm (frameTid f) = none ∧ (s.entry 0).st = .free ∧ (∀ j : Fin 256, j < 0 → (s.entry j).st ≠ .free) :=
  ⟨⟨rfl, rfl, rfl, rfl, rfl, rfl⟩, rfl, by decide +kernel, by decide +kernel, by decide +kernel, by decide +kernel, rfl,
    fun j h => absurd h (by simp)⟩

theorem witness_DispatchedFrameTouchesItsEntry_full :
    let s := { queued (frame 5) up with
      tdr := { Tdr.reset with entries := Vector.replicate 256 { Terminal.reset with st := .learned, id := 9 } } }
    let f := (s.buffer 0).bytes
    Dispatches headEntry [] s ∧ s.ccu.cfg.coverageEn = false ∧ 5 ≤ frameKind f ∧ frameTid f ≠ 0 ∧ frameTid f ≠ 0xFFFF ∧
      s.findTerm (frameTid f) = none ∧ (∀ j, (s.entry j).st ≠ .free) :=
  ⟨⟨rfl, rfl, rfl, rfl, rfl, rfl⟩, rfl, by decide +kernel, by decide +kernel, by decide +kernel, by decide +kernel,
    fun j => by simp [State.entry]⟩

theorem witness_DispatchedFrameTouchesItsEntry_nobody :
    let s := queued ((frame 5).set 2 0) up
    let f := (s.buffer 0).bytes
    Dispatches headEntry [] s ∧ s.ccu.cfg.coverageEn = false ∧ 5 ≤ frameKind f ∧ frameTid f = 0 :=
  ⟨⟨rfl, rfl, rfl, rfl, rfl, rfl⟩, rfl, by decide +kernel, by decide +kernel⟩

/-- `frame` carries sequence 0x0102 and the window is 4: from these last sequences d is 0, 1, 4 and 5. -/
theorem witness_InOrderStatusFrameKeepsTheCraneLive :
    ∀ qd ∈ ([(0x0102, 0), (0x0101, 1), (0x00FE, 4), (0x00FD, 5)] : List (BitVec 16 × Nat)),
      let s := dispatching 1 { Cfg.reset with craneEn := true } qd.1
      let f := (s.buffer 0).bytes
      Dispatches headEntry [] s ∧ s.ccu.cfg.coverageEn = false ∧ s.ccu.cfg.craneEn = true ∧
        frameKind f = 1 ∧ s.findTerm (frameTid f) = some 0 ∧ (s.entry 0).ctx = some 2 ∧ (s.crane 2).st = .live ∧
        (s.crane 2).tid = frameTid f ∧ (s.crane 2).dirIndex = 0 ∧ (s.crane 2).lastSeq = some qd.1 ∧
        (∀ d, (s.crane 2).countdown = some d → s.tbs.runClock ≤ d) ∧ (frameSeq f - qd.1).toNat = qd.2 ∧
        (s.crane 2).window = 4 := by
  intro qd h
  refine ⟨dispatching_dispatches _ _ _, rfl, rfl, ?_, ?_, rfl, rfl, ?_, rfl, rfl, fun d h => ?_, ?_, rfl⟩
  · decide +kernel +revert
  · decide +kernel +revert
  · decide +kernel +revert
  · exact Nat.zero_le d
  · decide +kernel +revert

/-- Context 2 in state `st`, its countdown just expired. -/
def expired (st : CraneState) (miss : Nat) : State :=
  let s := withCrane 2 { Crane.reset with st := st, tid := 7, deadline := 5000, countdown := some 60, holdLimit := 3, miss := miss } up
  { s with tbs := { s.tbs with runClock := 60 } }

theorem witness_ExpiryActsByState (st : CraneState) (h : st ≠ .unbound) (miss : Nat) :
    let s := expired st miss
    s.pins.inReset = false ∧ s.lif.injWaiting = [] ∧ s.working = true ∧ (s.crane 2).st ≠ .unbound ∧
      (s.crane 2).countdown = some 60 ∧ 60 ≤ s.tbs.runClock := ⟨rfl, rfl, rfl, h, rfl, Nat.le_refl _⟩

theorem witness_ExpiryActsByState_degraded :
    ((expired .degraded 2).crane 2).st = .degraded ∧
      ((expired .degraded 2).crane 2).holdLimit ≤ min (((expired .degraded 2).crane 2).miss + 1) 15 ∧
      min (((expired .degraded 1).crane 2).miss + 1) 15 < ((expired .degraded 1).crane 2).holdLimit := by
  decide +kernel

/-- The context of `expired` in bin 3, its terminal's last cell `cell`, with `bins` bins and `cells` cells. -/
def penalized (st : CraneState) (cell : Option (Fin 16)) (bins cells : Nat) : State :=
  let s := withEntry 0 { Terminal.reset with st := .registered, id := 7, ctx := some 2, lastCell := cell } (expired st 2)
  let s := withCrane 2 { s.crane 2 with bin := some 3 } s
  { s with ccu := { s.ccu with cfg := { Cfg.reset with coverageEn := true, binCount := bins, cellCount := cells } } }

/-- Cell 7 of bin 3 within the grid, beyond its cells, beyond its bins; no last cell. -/
theorem witness_ExpiryActsByState_penalty (st : CraneState) (h : st = .live ∨ st = .degraded) (cell : Option (Fin 16))
    (bins cells : Nat) :
    let s := penalized st cell bins cells
    s.pins.inReset = false ∧ s.lif.injWaiting = [] ∧ s.working = true ∧ (s.crane 2).st ≠ .unbound ∧
      (s.crane 2).countdown = some 60 ∧ 60 ≤ s.tbs.runClock ∧ (s.crane 2).bin = some 3 ∧
      (s.entry (s.crane 2).dirIndex).lastCell = cell ∧ s.ccu.cfg.coverageEn = true ∧ s.ccu.cfg.binCount = bins ∧
      s.ccu.cfg.cellCount = cells ∧ -64 ≤ s.ccu.cfg.penaltyMargin :=
  ⟨rfl, rfl, rfl, (by rcases h with rfl | rfl <;> decide : st ≠ .unbound), rfl, Nat.le_refl _, rfl, rfl, rfl, rfl, rfl,
    (by decide : (-64 : Int) ≤ -20)⟩

/-! ## Witnesses: the host's commands -/

/-- `s` with one record pending, whose first bytes are `bytes`. -/
def asking (bytes : List Byte) (s : State) : State :=
  { s with
    ccu := { s.ccu with commandRing := s.ccu.commandRing.set 0 (Vector.ofFn fun i => bytes[i.val]?.getD 0) }
    rpw := { s.rpw with prod := 1 } }

/-- What a state built on `up` needs for its record to be taken. -/
theorem asking_takes (k : CommandKind) (s : State) (h : s.pins.inReset = false ∧ s.lif.injWaiting = [] ∧
    s.lif.injQueue.length + 1 ≤ 16 ∧ s.rpw.exec = .idle ∧ s.ccu.part = .running ∧ s.rpw.prod ≠ s.rpw.done ∧
    commandOf (rdLe s.nextRecord 0 1) = k ∧ s.rmn.handling = none ∧ ∀ q ∈ s.rpw.events, q.ofCommand = false) :
    Takes k s :=
  ⟨⟨h.1, h.2.1, h.2.2.1⟩, h.2.2.2.1, h.2.2.2.2.1, h.2.2.2.2.2.1, h.2.2.2.2.2.2.1, h.2.2.2.2.2.2.2.1,
    h.2.2.2.2.2.2.2.2⟩

theorem witness_EmptyAndRefusedCommandsChangeNothing :
    Takes .nop (asking [0x00] up) ∧ Takes .unknown (asking [0x99] up) ∧
      (Takes .bindCrane (asking [0x20] up) ∧ (asking [0x20] up).ccu.cfg.craneEn = false) ∧
      Takes .unbindCrane (asking [0x21] up) ∧ Takes .forceHold (asking [0x22] up) ∧
      Takes .releaseHold (asking [0x23] up) ∧
      (Takes .addReefer (asking [0x30] up) ∧ (asking [0x30] up).ccu.cfg.reeferEn = false) ∧
      Takes .clearDose (asking [0x31] up) ∧ Takes .retireReefer (asking [0x32] up) ∧
      (Takes .resetBin (asking [0x40] up) ∧ (asking [0x40] up).ccu.cfg.coverageEn = false) ∧
      Takes .snapshotCoverage (asking [0x41] up) :=
  ⟨asking_takes _ _ (by decide +kernel), asking_takes _ _ (by decide +kernel),
    ⟨asking_takes _ _ (by decide +kernel), rfl⟩, asking_takes _ _ (by decide +kernel),
    asking_takes _ _ (by decide +kernel), asking_takes _ _ (by decide +kernel),
    ⟨asking_takes _ _ (by decide +kernel), rfl⟩, asking_takes _ _ (by decide +kernel),
    asking_takes _ _ (by decide +kernel), ⟨asking_takes _ _ (by decide +kernel), rfl⟩,
    asking_takes _ _ (by decide +kernel)⟩

theorem witness_TimeCommandsMoveTheOffset : Takes .setTime (asking [0x01] up) ∧ Takes .adjustTime (asking [0x02] up) :=
  ⟨asking_takes _ _ (by decide +kernel), asking_takes _ _ (by decide +kernel)⟩

/-- `up` with a sweep RUNNING in phase `p` at item `n`. -/
def sweepingAt (p : SweepPhase) (n : Nat) : State :=
  { up with tbs := { up.tbs with sweeping := true, phase := p, cursor := n, rangeEnd := 2047, runClock := 7200000000 } }

theorem witness_SweepNowBeginsOrOverruns :
    (Takes .sweepNow (asking [0x03] up) ∧ (asking [0x03] up).tbs.sweeping = false) ∧
      (Takes .sweepNow (asking [0x03] (sweepingAt .grid 5)) ∧
        (asking [0x03] (sweepingAt .grid 5)).tbs.sweeping = true) :=
  ⟨⟨asking_takes _ _ (by decide +kernel), rfl⟩, asking_takes _ _ (by decide +kernel), rfl⟩

/-- REGISTER_TERMINAL of crane 7 with home bin 63. -/
def register : List Byte := [0x10, 0, 0, 0, 0, 0, 0, 0, 7, 0, 0, 63]

theorem witness_RegisterTerminalMakesAnEntry :
    let s := asking register up
    let id := BitVec.ofNat 16 (rdLe s.nextRecord 8 2)
    Takes .registerTerminal s ∧ rdLe s.nextRecord 10 1 = termKindCode .crane ∧ id ≠ 0 ∧ id ≠ 0xFFFF ∧
      s.findTerm id = none ∧ rdLe s.nextRecord 11 1 = optFin (some (63 : Fin 64)) ∧ (s.entry 0).st = .free ∧
      (∀ j : Fin 256, j < 0 → (s.entry j).st ≠ .free) :=
  ⟨asking_takes _ _ (by decide +kernel), by decide +kernel, by decide +kernel, by decide +kernel, by decide +kernel,
    by decide +kernel, rfl, fun j h => absurd h (by simp)⟩

theorem witness_RegisterTerminalMakesAnEntry_full :
    let s := { asking register up with
      tdr := { Tdr.reset with entries := Vector.replicate 256 { Terminal.reset with st := .registered, id := 9 } } }
    let id := BitVec.ofNat 16 (rdLe s.nextRecord 8 2)
    Takes .registerTerminal s ∧ rdLe s.nextRecord 10 1 = termKindCode .crane ∧ id ≠ 0 ∧ id ≠ 0xFFFF ∧
      s.findTerm id = none ∧ rdLe s.nextRecord 11 1 < 64 ∧ (∀ j, (s.entry j).st = .registered) :=
  ⟨asking_takes _ _ (by decide +kernel), by decide +kernel, by decide +kernel, by decide +kernel, by decide +kernel,
    by decide +kernel, fun j => by simp [State.entry]⟩

/-- Every entry is LEARNED and heard at 5, but entry 200 at `seen`, which has last cell `cell`. -/
def crowdedOut (seen : Nat) (cell : Option (Fin 16)) : State :=
  let e : Terminal := { Terminal.reset with st := .learned, id := 9, lastSeen := 5 }
  { asking register jobs with tdr := { Tdr.reset with
    entries := (Vector.replicate 256 e).set 200 { e with lastSeen := seen, lastCell := cell } } }

theorem crowdedOut_entry (seen : Nat) (cell : Option (Fin 16)) (j : Fin 256) :
    (crowdedOut seen cell).entry j = { Terminal.reset with
      st := .learned, id := 9, lastSeen := if j = 200 then seen else 5, lastCell := if j = 200 then cell else none } := by
  have ne : (200 : Nat) = j.val ↔ j = 200 := by rw [Fin.ext_iff]; exact eq_comm
  by_cases h : j = 200 <;> simp [crowdedOut, State.entry, ne, h, Terminal.reset]

/-- Entry 200 is the oldest, with or without a last cell; all are as old, and entry 0 is the lowest. -/
theorem witness_RegisterTerminalMakesAnEntry_evicts (cell : Option (Fin 16)) :
    let s (seen : Nat) := crowdedOut seen cell
    let oldest (s : State) (i : Fin 256) : Prop := ∀ j, (s.entry j).st = .learned →
      (s.entry i).lastSeen < (s.entry j).lastSeen ∨ (s.entry i).lastSeen = (s.entry j).lastSeen ∧ i ≤ j
    (∀ seen, (s seen).nextRecord = (asking register up).nextRecord ∧ (∀ j, ((s seen).entry j).st = .learned) ∧
      (s seen).findTerm 7 = none ∧ ((s seen).entry 200).lastCell = cell ∧ ((s seen).entry 0).lastCell = none) ∧
      oldest (s 4) 200 ∧ oldest (s 5) 0 := by
  have zero : (0 : Fin 256) ≠ 200 := by decide
  refine ⟨fun seen => ⟨rfl, fun j => by rw [crowdedOut_entry], ?_, by rw [crowdedOut_entry]; rfl, by
    rw [crowdedOut_entry]; simp [zero]⟩, fun j _ => ?_, fun j _ => ?_⟩
  · simp [State.findTerm, crowdedOut_entry]
  · simp only [crowdedOut_entry]; by_cases h : j = 200 <;> simp [h]
  · simp only [crowdedOut_entry]; simp

theorem witness_RegisterTerminalMakesAnEntry_evicting (seen : Nat) (cell : Option (Fin 16)) :
    Takes .registerTerminal (crowdedOut seen cell) :=
  asking_takes _ _ ⟨rfl, rfl, (by decide : 0 + 1 ≤ 16), rfl, rfl, (by decide : (1 : Word) ≠ 0),
    (by decide +kernel : commandOf (rdLe (asking register up).nextRecord 0 1) = .registerTerminal), rfl,
    fun _ h => absurd h (List.not_mem_nil)⟩

theorem witness_RegisterTerminalMakesAnEntry_refused :
    let s := asking [0x10, 0, 0, 0, 0, 0, 0, 0, 7, 0, 4, 63] up
    Takes .registerTerminal s ∧ 4 ≤ rdLe s.nextRecord 10 1 := ⟨asking_takes _ _ (by decide +kernel), by decide +kernel⟩

/-- Terminal 7 is registered at entry 0 with the given last cell and context. -/
def terminal7 (cell : Option (Fin 16)) (ctx : Option (Fin 32)) : State :=
  withEntry 0 { Terminal.reset with st := .registered, id := 7, lastCell := cell, ctx := ctx } jobs

/-- REGISTER_TERMINAL of terminal 7, which is known, as kind `kind`: bound to context 4, or not. -/
theorem witness_RegisterTerminalMakesAnEntry_again :
    ∀ q ∈ ([(some 4, .other), (some 4, .crane), (none, .survey)] : List (Option (Fin 32) × TermKind)),
      let s := asking [0x10, 0, 0, 0, 0, 0, 0, 0, 7, 0, BitVec.ofNat 8 (termKindCode q.2), 255] (terminal7 (some 15) q.1)
      Takes .registerTerminal s ∧ rdLe s.nextRecord 10 1 = termKindCode q.2 ∧
        rdLe s.nextRecord 11 1 = optFin (none : Option (Fin 64)) ∧
        s.findTerm (BitVec.ofNat 16 (rdLe s.nextRecord 8 2)) = some 0 ∧ (s.entry 0).st = .registered ∧
        (s.entry 0).ctx = q.1 := by
  intro q h
  refine ⟨asking_takes _ _ ?_, ?_, ?_, ?_, rfl, rfl⟩ <;> decide +kernel +revert

theorem witness_DeregisterTerminalFreesTheEntry :
    let s (cell : Option (Fin 16)) (ctx : Option (Fin 32)) := asking [0x11, 0, 0, 0, 0, 0, 0, 0, 7, 0] (terminal7 cell ctx)
    (Takes .deregisterTerminal (s (some 15) none) ∧ BitVec.ofNat 16 (rdLe (s (some 15) none).nextRecord 8 2) = 7 ∧
        (s (some 15) none).findTerm 7 = some 0 ∧ ((s (some 15) none).entry 0).ctx = none ∧
        ((s (some 15) none).entry 0).lastCell = some 15) ∧
      (Takes .deregisterTerminal (s none none) ∧ (s none none).findTerm 7 = some 0 ∧
        ((s none none).entry 0).lastCell = none) ∧
      (Takes .deregisterTerminal (s none (some 4)) ∧ (s none (some 4)).findTerm 7 = some 0 ∧
        ((s none (some 4)).entry 0).ctx ≠ none) :=
  ⟨⟨asking_takes _ _ (by decide +kernel), by decide +kernel, by decide +kernel, rfl, rfl⟩,
    ⟨asking_takes _ _ (by decide +kernel), by decide +kernel, rfl⟩,
    asking_takes _ _ (by decide +kernel), by decide +kernel, by decide +kernel⟩

theorem witness_DeregisterTerminalFreesTheEntry_not_found :
    let s := asking [0x11, 0, 0, 0, 0, 0, 0, 0, 8, 0] (terminal7 none none)
    let u := asking [0x11, 0, 0, 0, 0, 0, 0, 0, 0xFF, 0xFF] (terminal7 none none)
    (Takes .deregisterTerminal s ∧ s.findTerm (BitVec.ofNat 16 (rdLe s.nextRecord 8 2)) = none) ∧
      (Takes .deregisterTerminal u ∧ BitVec.ofNat 16 (rdLe u.nextRecord 8 2) = 0xFFFF) :=
  ⟨⟨asking_takes _ _ (by decide +kernel), by decide +kernel⟩, asking_takes _ _ (by decide +kernel), by decide +kernel⟩

/-- BIND_CRANE of terminal 7 to context `k`. -/
def bind (k : Byte) : List Byte := [0x20, 0, 0, 0, 0, 0, 0, 0, k, 0, 7, 0, 0x10, 0x27, 0, 0, 3, 5, 10, 0]

theorem witness_BindCraneBindsTheContext :
    let s := asking (bind 31) (terminal7 none none)
    let q := s.nextRecord
    Takes .bindCrane s ∧ s.ccu.cfg.craneEn = true ∧ rdLe q 8 1 = (31 : Fin 32).val ∧ (s.crane 31).st = .unbound ∧
      s.findTerm (BitVec.ofNat 16 (rdLe q 10 2)) = some 0 ∧ (s.entry 0).st = .registered ∧ (s.entry 0).kind = .crane ∧
      (s.entry 0).ctx = none :=
  ⟨asking_takes _ _ (by decide +kernel), rfl, by decide +kernel, by decide +kernel, by decide +kernel, rfl, rfl, rfl⟩

theorem witness_BindCraneBindsTheContext_refused :
    let a := asking (bind 32) (terminal7 none none)
    let b := withCrane 31 { Crane.reset with st := .live } (asking (bind 31) (terminal7 none none))
    let c := asking (bind 31) jobs
    let d := withEntry 0 { Terminal.reset with st := .learned, id := 7 } (asking (bind 31) jobs)
    let e := asking (bind 31) (terminal7 none (some 4))
    (Takes .bindCrane a ∧ 32 ≤ rdLe a.nextRecord 8 1) ∧
      (Takes .bindCrane b ∧ rdLe b.nextRecord 8 1 = (31 : Fin 32).val ∧ (b.crane 31).st ≠ .unbound) ∧
      (Takes .bindCrane c ∧ (c.crane 31).st = .unbound ∧ c.findTerm (BitVec.ofNat 16 (rdLe c.nextRecord 10 2)) = none) ∧
      (Takes .bindCrane d ∧ d.findTerm (BitVec.ofNat 16 (rdLe d.nextRecord 10 2)) = some 0 ∧
        (d.entry 0).st ≠ .registered) ∧
      (Takes .bindCrane e ∧ e.findTerm (BitVec.ofNat 16 (rdLe e.nextRecord 10 2)) = some 0 ∧
        (e.entry 0).st = .registered ∧ (e.entry 0).kind = .crane ∧ (e.entry 0).ctx ≠ none) :=
  ⟨⟨asking_takes _ _ (by decide +kernel), by decide +kernel⟩,
    ⟨asking_takes _ _ (by decide +kernel), by decide +kernel, by decide +kernel⟩,
    ⟨asking_takes _ _ (by decide +kernel), by decide +kernel, by decide +kernel⟩,
    ⟨asking_takes _ _ (by decide +kernel), by decide +kernel, by decide +kernel⟩,
    asking_takes _ _ (by decide +kernel), by decide +kernel, rfl, rfl, by decide +kernel⟩

/-- A command `code` for context `k`, context 31 being `c`. -/
def onContext (code k : Byte) (c : Crane) : State := withCrane 31 c (asking [code, 0, 0, 0, 0, 0, 0, 0, k] jobs)

theorem witness_UnbindCraneFreesTheContext :
    let s (st : CraneState) := onContext 0x21 31 { Crane.reset with st := st }
    Takes .unbindCrane (s .hold) ∧ (s .hold).ccu.cfg.craneEn = true ∧
      rdLe (s .hold).nextRecord 8 1 = (31 : Fin 32).val ∧ ((s .hold).crane 31).st ≠ .unbound ∧
      Takes .unbindCrane (s .unbound) ∧ ((s .unbound).crane 31).st = .unbound ∧
      Takes .unbindCrane (onContext 0x21 32 .reset) ∧ 32 ≤ rdLe (onContext 0x21 32 .reset).nextRecord 8 1 :=
  ⟨asking_takes _ _ (by decide +kernel), rfl, by decide +kernel, by decide +kernel, asking_takes _ _ (by decide +kernel),
    rfl, asking_takes _ _ (by decide +kernel), by decide +kernel⟩

theorem witness_ForceHoldEntersHold :
    let s (st : CraneState) := onContext 0x22 31 { Crane.reset with st := st }
    Takes .forceHold (s .hold) ∧ (s .hold).ccu.cfg.craneEn = true ∧
      rdLe (s .hold).nextRecord 8 1 = (31 : Fin 32).val ∧ ((s .hold).crane 31).st ≠ .unbound ∧
      Takes .forceHold (s .unbound) ∧ ((s .unbound).crane 31).st = .unbound ∧
      Takes .forceHold (onContext 0x22 32 .reset) ∧ 32 ≤ rdLe (onContext 0x22 32 .reset).nextRecord 8 1 :=
  ⟨asking_takes _ _ (by decide +kernel), rfl, by decide +kernel, by decide +kernel, asking_takes _ _ (by decide +kernel),
    rfl, asking_takes _ _ (by decide +kernel), by decide +kernel⟩

theorem witness_ReleaseHoldNeedsReady :
    let s (st : CraneState) (ready : Bool) := onContext 0x23 31 { Crane.reset with st := st, ready := ready }
    Takes .releaseHold (s .hold true) ∧ (s .hold true).ccu.cfg.craneEn = true ∧
      rdLe (s .hold true).nextRecord 8 1 = (31 : Fin 32).val ∧ ((s .hold true).crane 31).st = .hold ∧
      ((s .hold true).crane 31).ready = true ∧
      Takes .releaseHold (s .hold false) ∧ ((s .hold false).crane 31).ready = false ∧
      Takes .releaseHold (s .live false) ∧ ((s .live false).crane 31).st ≠ .hold ∧
      Takes .releaseHold (onContext 0x23 32 .reset) ∧ 32 ≤ rdLe (onContext 0x23 32 .reset).nextRecord 8 1 :=
  ⟨asking_takes _ _ (by decide +kernel), rfl, by decide +kernel, rfl, rfl, asking_takes _ _ (by decide +kernel), rfl,
    asking_takes _ _ (by decide +kernel), by decide +kernel, asking_takes _ _ (by decide +kernel), by decide +kernel⟩

/-- `n` of the four ways of set 1 hold `r`. -/
def ways (r : Reefer) : Nat → State → State
  | 0, s => s
  | n + 1, s => withReefer (Fin.ofNat 2048 (4 + n)) r (ways r n s)

/-- A command `code` for tag 1 (set 1), profile `p`; the digest ring is full, `n` ways of the tag's set hold `r`. -/
def onTag (code p : Byte) (n : Nat) (r : Reefer) : State :=
  let s := asking [code, 0, 0, 0, 0, 0, 0, 0, 1, 0, 0, 0, p] jobs
  ways r n { s with rpw := { s.rpw with dgProd := 1024 } }

def tagged (pending : Bool) : Reefer := { Reefer.reset with used := true, tag := 1, pending := pending }
def other : Reefer := { Reefer.reset with used := true, tag := 9 }

/-- `s` with one slot of the digest ring free. -/
def oneFree (s : State) : State := { s with rpw := { s.rpw with dgProd := 1023 } }

theorem witness_AddReeferProvisionsARecord_written :
    let s := oneFree (onTag 0x30 7 3 other)
    Takes .addReefer s ∧ Ready 2 s ∧ s.ccu.cfg.reeferEn = true ∧ BitVec.ofNat 32 (rdLe s.nextRecord 8 4) = 1 ∧
      rdLe s.nextRecord 12 1 < 8 ∧ s.findReefer 1 = none ∧ s.freeWay 1 = some 7 ∧ DigestFits s :=
  ⟨asking_takes _ _ (by decide +kernel), ⟨rfl, rfl, by decide +kernel⟩, rfl, by decide +kernel⟩

theorem witness_RetireReeferFreesTheRecord_written (pending : Bool) :
    let s := oneFree (onTag 0x32 0 1 (tagged pending))
    Takes .retireReefer s ∧ Ready 2 s ∧ s.ccu.cfg.reeferEn = true ∧ BitVec.ofNat 32 (rdLe s.nextRecord 8 4) = 1 ∧
      s.findReefer 1 = some 4 ∧ DigestFits s :=
  ⟨asking_takes _ _ (by cases pending <;> decide +kernel), ⟨rfl, rfl, (by decide : 0 + 2 ≤ 16)⟩, rfl,
    by cases pending <;> decide +kernel⟩

theorem witness_AddReeferProvisionsARecord :
    let s (p : Byte) (n : Nat) (r : Reefer) := onTag 0x30 p n r
    let tag (s : State) := BitVec.ofNat 32 (rdLe s.nextRecord 8 4)
    Takes .addReefer (s 7 3 other) ∧ (s 7 3 other).ccu.cfg.reeferEn = true ∧ tag (s 7 3 other) ≠ 0 ∧
      rdLe (s 7 3 other).nextRecord 12 1 < 8 ∧ (s 7 3 other).findReefer (tag (s 7 3 other)) = none ∧
      (s 7 3 other).freeWay (tag (s 7 3 other)) = some 7 ∧
      1024 ≤ ((s 7 3 other).rpw.dgProd - (s 7 3 other).rpw.dgCons).toNat ∧
      (Takes .addReefer (s 8 3 other) ∧ 8 ≤ rdLe (s 8 3 other).nextRecord 12 1 ∧
        rdLe (s 8 3 other).nextRecord 12 1 ≠ 255) ∧
      (Takes .addReefer (s 255 1 (tagged false)) ∧ rdLe (s 255 1 (tagged false)).nextRecord 12 1 = 255 ∧
        (s 255 1 (tagged false)).findReefer (tag (s 255 1 (tagged false))) ≠ none) ∧
      (Takes .addReefer (s 255 4 other) ∧ (s 255 4 other).findReefer (tag (s 255 4 other)) = none ∧
        (s 255 4 other).freeWay (tag (s 255 4 other)) = none) :=
  ⟨asking_takes _ _ (by decide +kernel), rfl, by decide +kernel, by decide +kernel, by decide +kernel, by decide +kernel,
    by decide +kernel, ⟨asking_takes _ _ (by decide +kernel), by decide +kernel, by decide +kernel⟩,
    ⟨asking_takes _ _ (by decide +kernel), by decide +kernel, by decide +kernel⟩,
    asking_takes _ _ (by decide +kernel), by decide +kernel, by decide +kernel⟩

theorem witness_ClearDoseClearsTheAccount :
    let s (pending : Bool) := onTag 0x31 0 1 (tagged pending)
    let z := asking [0x31] jobs
    Takes .clearDose (s true) ∧ (s true).ccu.cfg.reeferEn = true ∧
      BitVec.ofNat 32 (rdLe (s true).nextRecord 8 4) = 1 ∧ (s true).findReefer 1 = some 4 ∧
      ((s true).reefer 4).pending = true ∧
      Takes .clearDose (s false) ∧ (s false).findReefer 1 = some 4 ∧ ((s false).reefer 4).pending = false ∧
      1024 ≤ ((s false).rpw.dgProd - (s false).rpw.dgCons).toNat ∧
      (Takes .clearDose (onTag 0x31 0 0 other) ∧ (onTag 0x31 0 0 other).findReefer 1 = none) ∧
      (Takes .clearDose z ∧ BitVec.ofNat 32 (rdLe z.nextRecord 8 4) = 0) :=
  ⟨asking_takes _ _ (by decide +kernel), rfl, by decide +kernel, by decide +kernel, by decide +kernel,
    asking_takes _ _ (by decide +kernel), by decide +kernel, by decide +kernel, by decide +kernel,
    ⟨asking_takes _ _ (by decide +kernel), by decide +kernel⟩, asking_takes _ _ (by decide +kernel), by decide +kernel⟩

theorem witness_ClearDoseClearsTheAccount_written :
    let s := oneFree (onTag 0x31 0 1 (tagged false))
    Takes .clearDose s ∧ Ready 3 s ∧ s.ccu.cfg.reeferEn = true ∧ BitVec.ofNat 32 (rdLe s.nextRecord 8 4) = 1 ∧
      s.findReefer 1 = some 4 ∧ (s.reefer 4).pending = false ∧ DigestFits s :=
  ⟨asking_takes _ _ (by decide +kernel), ⟨rfl, rfl, by decide +kernel⟩, rfl, by decide +kernel⟩

/-- A REEFER_REPORT of gateway 7 with one entry: tag 0x12345, setpoint 40, supply 75, return 0, mode 1, no alarm, powered and
valid, no profile. -/
def report : Frame :=
  Vector.ofFn fun i => if i.val = 10 then 1 else if i.val < 32 then (frame 3)[i] else
    ([0x45, 0x23, 1, 0, 40, 0, 75, 0, 0, 0, 1, 0, 3, 0xFF, 9, 0] : List Byte)[i.val - 32]?.getD 0

/-- `report` heads the dispatch queue; its record, MISSING and near the warning, owes a digest or not; Dp is `dp`. -/
def reporting (pending : Bool) (dp : Word) : State :=
  let s := queued report (withEntry 0 { Terminal.reset with st := .registered, id := 7, homeBin := some 3 }
    (withReefer 1872 { Reefer.reset with
      used := true, tag := 0x12345, missing := true, doseClock := some 0, excess := 30, dose := 590, pending := pending } up))
  { s with
    tbs := { s.tbs with runClock := 1200000000 }
    rpw := { s.rpw with dgProd := dp }
    ccu := { s.ccu with cfg := { Cfg.reset with reeferEn := true } } }

/-- The digest is written, owed, counted. -/
theorem witness_DispatchedFrameTouchesItsEntry_report (pending : Bool) (dp : Word) :
    let s := reporting pending dp
    let f := (s.buffer headEntry.buf).bytes
    Dispatches headEntry [] s ∧ s.ccu.cfg.coverageEn = false ∧ s.ccu.cfg.reeferEn = true ∧ RoomForEvents .rfm 2 s ∧
      f = report ∧ s.rpw.dgProd = dp ∧ s.rpw.dgCons = 0 :=
  ⟨⟨rfl, rfl, rfl, rfl, rfl, rfl⟩, rfl, rfl, by simp [RoomForEvents, reporting, queued, withEntry, withReefer, up, State.reset,
      Lif.reset, Rpw.reset], rfl, rfl, rfl⟩

theorem witness_DispatchedFrameTouchesItsEntry_record (pending : Bool) :
    let s := reporting pending 0
    s.findTerm 7 = some 0 ∧ s.findReefer 0x12345 = some 1872 ∧ (s.reefer 1872).pending = pending ∧ (s.reefer 1872).doseClock = some 0 := by
  cases pending <;> decide +kernel

theorem witness_DispatchedFrameTouchesItsEntry_entry :
    frameKind report = 3 ∧ frameCount report = 1 ∧ frameTid report = 7 ∧ entryTag report 0 = 0x12345 ∧
      8 ≤ entryProfile report 0 ∧ (entryFlags report 0).testBit 0 = true ∧ (entryFlags report 0).testBit 1 = true ∧
      entryMode report 0 ≠ 0 ∧ entryMode report 0 ≠ 3 ∧ -500 ≤ entrySupply report 0 ∧ entrySupply report 0 ≤ 600 ∧
      entryAlarm report 0 = 0 := by decide +kernel

theorem witness_RetireReeferFreesTheRecord :
    let s := onTag 0x32 0 1 (tagged true)
    let z := asking [0x32] jobs
    Takes .retireReefer s ∧ s.ccu.cfg.reeferEn = true ∧ BitVec.ofNat 32 (rdLe s.nextRecord 8 4) = 1 ∧
      s.findReefer 1 = some 4 ∧ 1024 ≤ (s.rpw.dgProd - s.rpw.dgCons).toNat ∧
      (Takes .retireReefer (onTag 0x32 0 0 other) ∧ (onTag 0x32 0 0 other).findReefer 1 = none) ∧
      (Takes .retireReefer z ∧ BitVec.ofNat 32 (rdLe z.nextRecord 8 4) = 0) :=
  ⟨asking_takes _ _ (by decide +kernel), rfl, by decide +kernel, by decide +kernel, by decide +kernel,
    ⟨asking_takes _ _ (by decide +kernel), by decide +kernel⟩, asking_takes _ _ (by decide +kernel), by decide +kernel⟩

theorem witness_ResetBinClearsTheRow :
    let s (b : Byte) := asking [0x40, 0, 0, 0, 0, 0, 0, 0, b] jobs
    Takes .resetBin (s 63) ∧ (s 63).ccu.cfg.coverageEn = true ∧ rdLe (s 63).nextRecord 8 1 = (63 : Fin 64).val ∧
      rdLe (s 63).nextRecord 8 1 < (s 63).ccu.cfg.binCount ∧
      (Takes .resetBin (s 64) ∧ (s 64).ccu.cfg.binCount ≤ rdLe (s 64).nextRecord 8 1) :=
  ⟨asking_takes _ _ (by decide +kernel), rfl, by decide +kernel, by decide +kernel,
    asking_takes _ _ (by decide +kernel), by decide +kernel⟩

theorem witness_SnapshotOpens : Takes .snapshotCoverage (asking [0x41] jobs) ∧ (asking [0x41] jobs).ccu.cfg.coverageEn = true :=
  ⟨asking_takes _ _ (by decide +kernel), rfl⟩

/-- A snapshot whose next row is `n`. -/
def snapping (n : Nat) : State :=
  { jobs with
    cvm := { jobs.cvm with snapRunning := true, nextBin := n, copied := n, gen := 1 }
    rpw := { jobs.rpw with exec := .executing } }

theorem witness_SnapshotRowIsCopied :
    ((snapping 62).cvm.snapRunning = true ∧ (snapping 62).cvm.nextBin = (62 : Fin 64).val ∧ (62 : Fin 64).val < 63 ∧
        Ready 1 (snapping 62)) ∧
      (snapping 63).cvm.snapRunning = true ∧ (snapping 63).cvm.nextBin = (63 : Fin 64).val ∧ Ready 4 (snapping 63) ∧
      (snapping 63).rpw.exec = .executing ∧ (∀ q ∈ (snapping 63).rpw.events, q.ofCommand = false) :=
  ⟨⟨rfl, rfl, by decide, ⟨rfl, rfl, by decide +kernel⟩⟩, rfl, rfl, ⟨rfl, rfl, by decide +kernel⟩, rfl, by decide +kernel⟩

/-! ## Witnesses: the sweep -/

theorem witness_TriggersAreTakenByState :
    let s : State := { up with tbs := { up.tbs with countdown := some 60, runClock := 60 } }
    let u : State := { up with tbs := { up.tbs with latchedSel := .pin } }
    (s.pins.inReset = false ∧ s.lif.injWaiting = [] ∧ s.tbs.countdown = some 60 ∧ 60 ≤ s.tbs.runClock ∧
        s.tbs.latchedSel ≠ .pin) ∧
      u.pins.inReset = false ∧ u.lif.injWaiting = [] ∧ u.tbs.latchedSel = .pin := by decide +kernel

theorem sweepingAt_sweeping (p : SweepPhase) (n : Nat) : Sweeping p (sweepingAt p n) := ⟨rfl, rfl, rfl, rfl, rfl, rfl, rfl⟩

/-- The visit at item `n` of phase `p` is under way; the events that wait are its own, of no visit, or none. -/
theorem witness_visits_under_way (p : SweepPhase) (n : Nat) :
    ∀ l ∈ ([[], [event .csv .craneHold .context 2 7 1 3],
        [event .tdr .terminalAged .terminal 7 255 0 3600, byVisit (event .tdr .terminalAged .terminal 7 255 0 3600)]] :
        List (List EventReq)),
      let u := sweepingAt p n
      let s := raised l { u with tbs := { u.tbs with visiting := true } }
      UnderWay p s ∧ s.tbs.cursor = n ∧ s.rpw.events = l ∧
        ((∀ q ∈ l, q.ofVisit = false) ↔ ¬∃ q ∈ l, q.ofVisit = true) := by
  intro l h
  exact ⟨⟨rfl, rfl, rfl, rfl, rfl, rfl⟩, rfl, rfl, by decide +revert⟩

/-- A directory visit to entry 255, LEARNED at run time `t`, with the given last cell; LEARN_AGE is 60 minutes. -/
def aging (t : Nat) (cell : Option (Fin 16)) : State :=
  withEntry 255 { Terminal.reset with st := .learned, id := 7, lastSeen := t, lastCell := cell } (sweepingAt .directory 255)

theorem witness_DirectoryVisitAgesLearnedEntries :
    let silence (s : State) := s.tbs.runClock - (s.entry 255).lastSeen
    let limit (s : State) := s.ccu.cfg.learnAge * 60000000
    (Sweeping .directory (aging 3600000000 none) ∧ (aging 3600000000 none).tbs.cursor = (255 : Fin 256).val ∧
        silence (aging 3600000000 none) ≤ limit (aging 3600000000 none)) ∧
      (Sweeping .directory (aging 3599999999 none) ∧ ((aging 3599999999 none).entry 255).st = .learned ∧
        limit (aging 3599999999 none) < silence (aging 3599999999 none) ∧
        ((aging 3599999999 none).entry 255).lastCell = none) ∧
      Sweeping .directory (aging 0 (some 3)) ∧ ((aging 0 (some 3)).entry 255).st = .learned ∧
      limit (aging 0 (some 3)) < silence (aging 0 (some 3)) ∧ ((aging 0 (some 3)).entry 255).lastCell = some 3 :=
  ⟨⟨⟨rfl, rfl, rfl, rfl, rfl, rfl, rfl⟩, rfl, by decide +kernel⟩,
    ⟨⟨rfl, rfl, rfl, rfl, rfl, rfl, rfl⟩, rfl, by decide +kernel, rfl⟩, ⟨rfl, rfl, rfl, rfl, rfl, rfl, rfl⟩, rfl,
    by decide +kernel, rfl⟩

/-- A reefer visit to record 4, last heard at run time 0, the reefer job on and the digest ring full. -/
def silent : State :=
  let s := withReefer 4 (tagged false) (sweepingAt .reefer 4)
  { s with ccu := jobs.ccu, rpw := { s.rpw with dgProd := 1024 } }

theorem witness_ReeferVisitFindsTheSilent :
    let s := silent
    let r := s.reefer 4
    let p := s.ccu.cfg.profiles[r.profile]
    Sweeping .reefer s ∧ s.tbs.cursor = (4 : Fin 2048).val ∧ s.rmn.handling = none ∧ s.ccu.cfg.reeferEn = true ∧
      r.used = true ∧ s.ccu.cfg.retireAge = 0 ∧ r.missing = false ∧
      p.interval * p.missFactor * 1000000 < s.tbs.runClock - r.lastReport ∧ nextCond p r = r.cond ∧ r.pending = false ∧
      1024 ≤ (s.rpw.dgProd - s.rpw.dgCons).toNat :=
  ⟨⟨rfl, rfl, rfl, rfl, rfl, rfl, rfl⟩, rfl, rfl, rfl, by decide +kernel, rfl, by decide +kernel, by decide +kernel,
    by decide +kernel, by decide +kernel, by decide +kernel⟩

/-- The record's gateway, heard just now, at entry 0 with home bin 3 and last cell 15; the hole flag of bin 3 is `hole`. -/
def heardGateway (hole : Bool) : State :=
  let s := withEntry 0 { Terminal.reset with
      st := .registered, id := 7, homeBin := some 3, lastCell := some 15, lastSeen := 7200000000 }
    (withReefer 4 { tagged false with gateway := 7 } silent)
  { s with cvm := { s.cvm with bins := s.cvm.bins.set 3 { Bin.reset with hole := hole } } }

/-- R116: the gateway unknown; heard, with the bin a hole; heard, with nothing said against the coverage. -/
theorem witness_ReeferVisitFindsTheSilent_reasons (hole : Bool) :
    silent.findTerm (silent.reefer 4).gateway = none ∧
      (let s := heardGateway hole
      Sweeping .reefer s ∧ (s.reefer 4).gateway = 7 ∧ s.findTerm 7 = some 0 ∧
        s.tbs.runClock - (s.entry 0).lastSeen = 0 ∧ s.ccu.cfg.coverageEn = true ∧ (s.entry 0).homeBin = some 3 ∧
        (s.entry 0).lastCell = some 15 ∧ (3 : Fin 64).val < s.ccu.cfg.binCount ∧ (15 : Fin 16).val < s.ccu.cfg.cellCount ∧
        (s.bin 3).hole = hole ∧ (s.bin 3).cells[(15 : Fin 16)].st ≠ .weak ∧ (s.entry 0).lastMargin = none) :=
  ⟨by decide +kernel, ⟨rfl, rfl, rfl, rfl, rfl, rfl, rfl⟩, by cases hole <;> decide +kernel⟩

/-- The record of `silent` that owes a digest, and one slot of the digest ring free. -/
theorem witness_ReeferVisitFindsTheSilent_digests :
    let s := withReefer 4 (tagged true) silent
    let u := oneFree silent
    (Sweeping .reefer s ∧ s.tbs.cursor = (4 : Fin 2048).val ∧ s.rmn.handling = none ∧ s.ccu.cfg.reeferEn = true ∧
        s.ccu.cfg.retireAge = 0 ∧ (s.reefer 4).pending = true ∧ (s.reefer 4).missing = false ∧
        s.findTerm (s.reefer 4).gateway = none) ∧
      Sweeping .reefer u ∧ Ready 2 u ∧ (u.reefer 4).pending = false ∧ DigestFits u :=
  ⟨⟨⟨rfl, rfl, rfl, rfl, rfl, rfl, rfl⟩, rfl, rfl, rfl, rfl, by decide +kernel⟩, ⟨rfl, rfl, rfl, rfl, rfl, rfl, rfl⟩,
    ⟨rfl, rfl, by decide +kernel⟩, by decide +kernel⟩

/-- `silent` with RETIRE_AGE `hours`; two hours have passed since the record was heard. -/
def retiring (hours : Nat) (r : Reefer) : State :=
  let s := withReefer 4 r silent
  { s with ccu := { s.ccu with cfg := { s.ccu.cfg with retireAge := hours } } }

theorem witness_ReeferVisitFindsTheSilent_retires (r : Reefer) :
    let s := retiring 1 r
    let old (u : State) (last : Nat) : Bool :=
      u.ccu.cfg.retireAge != 0 && decide (u.ccu.cfg.retireAge * 3600000000 < u.tbs.runClock - last)
    Sweeping .reefer s ∧ s.tbs.cursor = (4 : Fin 2048).val ∧ s.rmn.handling = none ∧ s.ccu.cfg.reeferEn = true ∧
      old s 0 = true ∧ old s 3600000000 = false ∧ old (retiring 2 r) 0 = false ∧ 1024 ≤ (s.rpw.dgProd - s.rpw.dgCons).toNat ∧
      Ready 2 (oneFree s) ∧ DigestFits (oneFree s) :=
  ⟨⟨rfl, rfl, rfl, rfl, rfl, rfl, rfl⟩, rfl, rfl, rfl, (by decide : (1 != 0 && decide (1 * 3600000000 < 7200000000 - 0)) = true),
    (by decide : (1 != 0 && decide (1 * 3600000000 < 7200000000 - 3600000000)) = false),
    (by decide : (2 != 0 && decide (2 * 3600000000 < 7200000000 - 0)) = false),
    (by decide +kernel : 1024 ≤ ((1024 : Word) - 0).toNat), ⟨rfl, rfl, (by decide : 0 + 2 ≤ 16)⟩,
    (by decide +kernel : ((1023 : Word) - 0).toNat < 1024)⟩

/-- A record of dose 600 or 1,800, the limits of a warning and of a breach, MISSING already or not; a warning that is over. -/
theorem witness_ReeferVisitFindsTheSilent_condition :
    ∀ q ∈ ([({ tagged false with dose := 600 }, .warn), ({ tagged false with dose := 1800, missing := true }, .breach),
        ({ tagged true with missing := true, dose := 599, cond := .warn }, .normal)] : List (Reefer × Condition)),
      let s := withReefer 4 q.1 silent
      let p := s.ccu.cfg.profiles[(s.reefer 4).profile]
      Sweeping .reefer s ∧ s.ccu.cfg.retireAge = 0 ∧ (s.reefer 4).used = true ∧ q.2 ≠ (s.reefer 4).cond ∧
        (if (s.reefer 4).cond = .breach ∨ p.breachDose ≤ (s.reefer 4).dose then Condition.breach
          else if p.warnDose ≤ (s.reefer 4).dose then .warn else .normal) = q.2 := by
  intro q h
  refine ⟨⟨rfl, rfl, rfl, rfl, rfl, rfl, rfl⟩, rfl, ?_, ?_, ?_⟩ <;> decide +kernel +revert

/-- A record that is MISSING already, and one heard at the limit, 2,700 s ago. -/
theorem witness_ReeferVisitFindsTheSilent_kept :
    ∀ r ∈ ([{ tagged false with missing := true }, { tagged false with lastReport := 4500000000 }] : List Reefer),
      let s := withReefer 4 r silent
      let p := s.ccu.cfg.profiles[(s.reefer 4).profile]
      s.ccu.cfg.retireAge = 0 ∧ (s.reefer 4).used = true ∧ ((s.reefer 4).missing = true ∨
        s.tbs.runClock - (s.reefer 4).lastReport ≤ p.interval * p.missFactor * 1000000) ∧
        nextCond p (s.reefer 4) = (s.reefer 4).cond := by
  intro r h
  refine ⟨rfl, ?_, ?_, ?_⟩ <;> decide +kernel +revert

theorem witness_ReeferVisitFindsTheSilent_passed :
    Sweeping .reefer (sweepingAt .reefer 2047) ∧ (sweepingAt .reefer 2047).tbs.cursor = (2047 : Fin 2048).val ∧
      (sweepingAt .reefer 2047).rmn.handling = none ∧ (sweepingAt .reefer 2047).ccu.cfg.reeferEn = false :=
  ⟨sweepingAt_sweeping _ _, rfl, rfl, rfl⟩

/-- A visit to bin 63, whose cell 0 was last heard at `last`; AGE_LIMIT is 60 minutes. Its preferred cell is `pref`. -/
def fading (last : Nat) (pref : Option (Fin 16)) : State :=
  let s := sweepingAt .grid 63
  let cell : Cell := { m := 320, n := 9, last := last, st := .good }
  { s with
    ccu := jobs.ccu
    cvm := { s.cvm with bins := s.cvm.bins.set 63 { Bin.reset with cells := Bin.reset.cells.set 0 cell, pref := pref } } }

theorem witness_GridVisitAgesCells (last : Nat) (pref : Option (Fin 16)) :
    let s := fading last pref
    let stale (c : Cell) : Prop := 0 < c.n ∧ s.ccu.cfg.ageLimit * 60000000 < s.tbs.runClock - c.last
    Sweeping .grid s ∧ s.tbs.cursor = (63 : Fin 64).val ∧ s.ccu.cfg.coverageEn = true ∧ (s.bin 63).pref = pref ∧
      (stale (s.bin 63).cells[(0 : Fin 16)] ↔ last < 3600000000) ∧ (∀ i : Fin 16, i ≠ 0 → ¬stale (s.bin 63).cells[i]) ∧
      Sweeping .grid (sweepingAt .grid 0) ∧ (sweepingAt .grid 0).ccu.cfg.coverageEn = false := by
  refine ⟨⟨rfl, rfl, rfl, rfl, rfl, rfl, rfl⟩, rfl, rfl, rfl, ?_, fun i hi h => ?_, sweepingAt_sweeping _ _, rfl⟩
  · show 0 < 9 ∧ 60 * 60000000 < 7200000000 - last ↔ _
    omega
  · have z : (((fading last pref).bin 63).cells[i]).n = 0 := by
      show ((Bin.reset.cells.set 0 { m := 320, n := 9, last := last, st := .good })[i]).n = 0
      have ne : ¬(0 : Nat) = i.val := fun e => hi (Fin.ext e.symm)
      simp [ne, Bin.reset, Cell.reset]
    omega

theorem witness_RefreshSectionJoins (n : Nat) :
    Sweeping .refresh (sweepingAt .refresh n) ∧ Ready 8 (sweepingAt .refresh n) ∧ (sweepingAt .refresh n).tbs.cursor = n :=
  ⟨sweepingAt_sweeping _ _, ⟨rfl, rfl, by simp [sweepingAt, up, State.reset, Lif.reset]⟩, rfl⟩

theorem witness_RefreshSectionJoins_last (restart : Bool) :
    let u := sweepingAt .refresh 4
    let s : State := { u with tbs := { u.tbs with restart := restart } }
    Sweeping .refresh s ∧ Ready 1 s ∧ s.tbs.cursor = 4 ∧ s.tbs.restart = restart ∧
      s.tbs.latchedSel = s.ccu.cfg.sweepSel ∧ s.tbs.latchedPeriod = s.ccu.cfg.sweepPeriod ∧
      (s.ccu.cfg.sweepSel ≠ .period → s.tbs.countdown = none) :=
  ⟨⟨rfl, rfl, rfl, rfl, rfl, rfl, rfl⟩, ⟨rfl, rfl, (by decide : 0 + 1 ≤ 16)⟩, rfl, rfl, rfl, rfl, fun _ => rfl⟩

/-! ## Witnesses: digests, events, part states -/

/-- The drain at record 0, which is `r`; the digest producer is `dp`. -/
def draining (r : Reefer) (dp : Word) : State :=
  let s := withReefer 0 r up
  { s with rfm := { s.rfm with draining := true, pendingCount := 1 }, rpw := { s.rpw with dgProd := dp } }

theorem witness_DrainWritesOwedDigests :
    let s := draining (tagged true) 1023
    let u := draining (tagged true) 1024
    let v := draining .reset 0
    (s.working = true ∧ s.rfm.draining = true ∧ s.rmn.handling = none ∧ Ready 2 s ∧ (s.reefer s.rfm.cursor).used = true ∧
        (s.reefer s.rfm.cursor).pending = true ∧ DigestFits s) ∧
      (u.working = true ∧ u.rfm.draining = true ∧ Ready 0 u ∧ (u.reefer u.rfm.cursor).used = true ∧
        (u.reefer u.rfm.cursor).pending = true ∧ 1024 ≤ (u.rpw.dgProd - u.rpw.dgCons).toNat) ∧
      v.working = true ∧ v.rfm.draining = true ∧ Ready 0 v ∧ (v.reefer v.rfm.cursor).used = false :=
  ⟨⟨rfl, rfl, rfl, ⟨rfl, rfl, by decide +kernel⟩, by decide +kernel, by decide +kernel, by decide +kernel⟩,
    ⟨rfl, rfl, ⟨rfl, rfl, by decide +kernel⟩, by decide +kernel, by decide +kernel, by decide +kernel⟩, rfl, rfl,
    ⟨rfl, rfl, by decide +kernel⟩, by decide +kernel⟩

/-- An event request of block `b`. -/
def request (b : Block) : EventReq := event b .timeSet .part 0 1 2 3

/-- A request of the CSV waits behind one of the TBS; producer `E` and lost count of the event ring. -/
def owed (E : Word) (lost : Nat) (set : Bool) (early : List (EventReq × Word64)) : State :=
  { up with rpw := { up.rpw with
    events := [request .tbs, request .csv], evProd := E, lost := lost, indicesSet := set, early := early } }

theorem witness_EventIsWrittenOrCounted (E : Word) (lost : Nat) (set : Bool) (early : List (EventReq × Word64)) :
    let s := owed E lost set early
    Ready 5 s ∧ s.rpw.events = [request .tbs] ++ request .csv :: [] ∧
      (∀ p ∈ [request .tbs], p.block ≠ (request .csv).block) ∧ (request .csv).ofCommand = false ∧
      s.rpw.indicesSet = set ∧ s.rpw.lost = lost ∧ s.rpw.early = early ∧ s.rpw.evProd = E :=
  ⟨⟨rfl, rfl, by simp [owed, up, State.reset, Lif.reset]⟩, rfl, by decide, rfl, rfl, rfl, rfl, rfl⟩

theorem witness_EventIsWrittenOrCounted_clauses :
    let free (s : State) := 1024 - (s.rpw.evProd - s.rpw.evCons).toNat
    1 ≤ free (owed 1023 0 true []) ∧ 2 ≤ free (owed 1022 5 true []) ∧ free (owed 1023 5 true []) = 1 ∧
      free (owed 1024 5 true []) = 0 ∧ (owed 0 0 false []).rpw.early.length < 16 ∧
      16 ≤ (owed 0 0 false (List.replicate 16 (request .csv, 0))).rpw.early.length := by decide +kernel

/-- The request of the CSV is of the command in progress, which has its status; another of that command waits, or none. -/
theorem witness_EventIsWrittenOrCounted_command (E : Word) (lost : Nat) (set another : Bool) :
    let first : EventReq := { request .tbs with ofCommand := another }
    let u := owed E lost set []
    let s : State := { u with rpw := { u.rpw with
      events := [first, byCommand (request .csv)], exec := .executing, result := some .done } }
    Ready 5 s ∧ s.rpw.events = [first] ++ byCommand (request .csv) :: [] ∧
      (∀ p ∈ [first], p.block ≠ (byCommand (request .csv)).block) ∧ (byCommand (request .csv)).ofCommand = true ∧
      s.rpw.exec = .executing ∧ s.rpw.result = some .done ∧ ((∀ p ∈ [first] ++ [], p.ofCommand = false) ↔ another = false) := by
  refine ⟨⟨rfl, rfl, (by decide : 0 + 5 ≤ 16)⟩, rfl, ?_, rfl, rfl, rfl, ?_⟩ <;> cases another <;> decide

/-- INITIALISING, its three reads answered. -/
def readAll : State :=
  { up with ccu := { up.ccu with part := .initialising, initReads := #v[some 5, some 6, some 7] } }

theorem witness_AreaInitialisationSetsTheIndices :
    let s := readAll
    s.pins.inReset = false ∧ s.lif.injWaiting = [] ∧ s.ccu.part = .initialising ∧ s.rpw.indicesSet = false ∧
      s.ccu.initReads[0] = some 5 ∧ s.ccu.initReads[1] = some 6 ∧ s.ccu.initReads[2] = some 7 ∧
      (∀ k : Fin 3, s.ccu.initKept[k] = none) := by decide +kernel

theorem witness_AreaInitialisationSetsTheIndices_ends (run : Bool) :
    let s : State := { readAll with ccu := { readAll.ccu with cfg := { Cfg.reset with run := run } } }
    s.lif.injQueue = [] ∧ s.rpw.early = [] ∧ s.rpw.earlyLoss = 0 ∧ s.ccu.cfg.run = run ∧
      (∀ r, (s.ring r).state = .disabled ∧ (s.ring r).desc.enable = false) ∧ (∀ k, (s.crane k).st = .unbound) ∧
      s.rfm.startKept = false ∧ s.tbs.restart = false :=
  ⟨rfl, rfl, rfl, rfl, (by decide +kernel : ∀ r, (up.ring r).state = .disabled ∧ (up.ring r).desc.enable = false),
    (by decide +kernel : ∀ k, (up.crane k).st = .unbound), rfl, rfl⟩

theorem witness_SuspendingDrains :
    let s := inPart .suspending false
    Ready 1 s ∧ s.ccu.part = .suspending ∧ (∀ r : Fin 16, (s.slot r).status = .empty) ∧ s.rmn.dispatch = [] ∧
      s.rpw.exec = .idle ∧ (∀ r : Fin 16, (s.ring r).commit = none) ∧ s.ccu.cfg.run = false :=
  ⟨⟨rfl, rfl, by decide +kernel⟩, rfl, by decide +kernel, rfl, rfl, by decide +kernel, rfl⟩

/-! ## Witnesses: arithmetic and the whole machine -/

theorem witness_RewriteKeepsTheHeaderCheck :
    beatWord (packBeat 0 [0x5A, 1]) 0 ≠ 0 ∧
      beatSum (beatSum 0 (packBeat 0 [0x5A, 1])) (packBeat 14 [0xA5, 0xFE]) = 0xFFFF := by decide +kernel

/-- Downlink ring 0 with hold enforcement and producer initiator `p`, crane 7 in HOLD in context 2, slot 7's record `m`. -/
def holdingFor (p : Nat) (m : List (Nat × SlotEntry)) (st : TrackState) : State :=
  let s := withCrane 2 { Crane.reset with st := .hold, tid := 7, bin := some 3 }
    (withEntry 0 { Terminal.reset with st := .registered, id := 7, ctx := some 2 }
      (withRing0 { downlink with slotMap := m, desc := { downlink.desc with prodInit := p } }))
  { s with rmn := { s.rmn with
    trackers := Vector.replicate 8 { Tracker.reset with st := st, slot := 7, index := 7, state := .hold, bin := some 3 } } }

/-- Any initiator is the producer. -/
abbrev holding := holdingFor 16

/-- Beat 0 of a CRANE_COMMAND to terminal `tid`. -/
def command (tid : Nat) : Beat := full (0x5A + 2 ^ 8 + tid * 2 ^ 16 + 2 * 2 ^ 32 + 32 * 2 ^ 64)

theorem holding_header (p : Nat) (x : Fin 16) (m : List (Nat × SlotEntry)) (st : TrackState) (b : Beat) (off : Nat)
    (addr : Word) (ha : addr.toNat = 0x20000700 + off) (ho : off = 0 ∨ off = 16) :
    HeaderBeat 0 x 7 off addr b (holdingFor p m st) := by
  have w : ∀ ab ∈ writtenBytes addr.toNat [b], 0x20000700 ≤ ab.1 ∧ ab.1 < 0x20000720 := by
    intro ab hab
    simp only [writtenBytes, List.zipIdx_cons, List.zipIdx_nil, List.flatMap_cons, List.flatMap_nil, List.append_nil,
      List.mem_filterMap, List.mem_range, ha] at hab
    obtain ⟨j, hj, hab⟩ := hab
    have hp : beatPlace (0x20000700 + off + 16 * 0) = 0x20000700 + off := by
      rcases ho with rfl | rfl <;> decide +kernel
    rw [hp] at hab
    split at hab <;> simp at hab
    obtain rfl := hab
    simp only
    omega
  have base : (holdingFor p m st).areaBase = 0x10000000 := up_base
  refine
    { offered := ⟨rfl, by simp [holdingFor, withCrane, withEntry, withRing0, withRing, up, State.reset, Lif.reset], rfl,
        by omega, by simp⟩
      running := rfl, enabled := rfl, downlink := rfl, acts := .inr (.inr rfl)
      slot := (by decide : 7 < 8), size := (by decide : 32 ≤ 256), place := ?_, free := ?_, outside := ?_, passes := ?_
      held := nothing_held _ _ fun r => up_empty r, words := ⟨?_, ?_⟩ }
  · rw [ha]; rfl
  · show (BitVec.ofNat 32 7 - 0 : Word).toNat % 8 < 8 - ((0 : Word) - 0).toNat
    decide
  · intro ab hab
    have := w ab hab
    simp only [InHostPage, InPartPage, base]
    omega
  · intro q hq
    have ne : ¬(0 : Nat) = q.val := fun h => hq (Fin.ext h.symm)
    have : ((holdingFor p m st).ring q).state = .disabled := by
      have := up_disabled q
      simpa [holdingFor, withCrane, withEntry, withRing0, withRing, State.ring, Vector.getElem_set, ne] using this
    exact ⟨fun a => by simp [Active, this] at a, clear_of_disabled _ _ q this⟩
  · intro ab hab hin
    have := w ab hab
    have : 0x20001000 ≤ ab.1 := hin.1
    omega
  · intro ab hab hin
    have := w ab hab
    have : 0x20001010 ≤ ab.1 := hin.1
    omega

theorem holding_rewrites (m : List (Nat × SlotEntry)) (st : TrackState) (b : Beat) (h : b.strobes = 0xFFFF) (off : Nat)
    (addr : Word) (ha : addr.toNat = 0x20000700 + off) (ho : off = 0 ∨ off = 16) : Rewrites 0 0 7 off addr b (holding m st) :=
  { holding_header 16 0 m st b off addr ha ho with producer := .inl rfl, full := h }

/-- A partial beat of the producer 0 and a beat of initiator 5 at offsets 0 and 16, and a full beat 1; slot 7's record is `m`. -/
theorem witness_RewriteKeepsTheHeaderCheck_spoils (m : List (Nat × SlotEntry)) :
    let s := holdingFor 0 m .opened
    let b : Beat := { data := 0, strobes := 0x00FF }
    (HeaderBeat 0 0 7 0 0x20000700 b s ∧ HeaderBeat 0 5 7 16 0x20000710 b s ∧
        HeaderBeat 0 0 7 16 0x20000710 (full 9) s) ∧
      (s.ring 0).slotMap = m ∧ indexOf (s.ring 0) 7 = 7 ∧ b.strobes ≠ 0 ∧ b.strobes ≠ 0xFFFF ∧ Produces 0 0 s ∧
      ¬Produces 0 5 s :=
  ⟨⟨holding_header _ _ _ _ _ _ _ (by decide) (.inl rfl), holding_header _ _ _ _ _ _ _ (by decide) (.inr rfl),
      holding_header _ _ _ _ _ _ _ (by decide) (.inr rfl)⟩, rfl,
    (rfl : _ = indexOf downlink 7).trans (by decide +kernel), by decide, by decide, .inr rfl,
    (by decide : ¬((0 : Nat) = 16 ∨ (0 : Nat) = 5))⟩

theorem witness_RewriteKeepsTheHeaderCheck_opens :
    let s := holding [] .free
    let b := command 7
    Rewrites 0 0 7 0 0x20000700 b s ∧ mapGet (s.ring 0).slotMap 7 = none ∧ (beatByte b 0).toNat = 0x5A ∧
      s.ccu.cfg.version = 0 ∧ (beatByte b 4).toNat = 2 ∧ s.ccu.cfg.kindMask.testBit 1 = true ∧
      s.findTerm (BitVec.ofNat 16 (beatWord b 1)) = some 0 ∧ (s.entry 0).ctx = some 2 ∧ (s.tracker 0).st = .free ∧
      (∀ j : Fin 8, j < 0 → (s.tracker j).st ≠ .free) ∧ (s.crane 2).bin = some 3 ∧ s.ccu.cfg.coverageEn = false :=
  ⟨holding_rewrites _ _ _ rfl 0 _ (by decide) (.inl rfl), rfl, by decide +kernel, rfl, by decide +kernel, by decide +kernel,
    by decide +kernel, rfl, by decide +kernel, fun j h => absurd h (by simp), rfl, rfl⟩

theorem witness_RewriteKeepsTheHeaderCheck_latches :
    let s : State := { holding [] .free with ccu := { up.ccu with cfg := { Cfg.reset with coverageEn := true } } }
    (s.crane 2).bin = some 3 ∧ s.ccu.cfg.coverageEn = true ∧ (3 : Fin 64).val < s.ccu.cfg.binCount := ⟨rfl, rfl, by decide +kernel⟩

theorem witness_RewriteKeepsTheHeaderCheck_passed :
    let s := holding [] .free
    Rewrites 0 0 7 0 0x20000700 (command 8) s ∧ s.findTerm (BitVec.ofNat 16 (beatWord (command 8) 1)) = none ∧
      Rewrites 0 0 7 0 0x20000700 (full 0) s ∧ (beatByte (full 0) 0).toNat ≠ 0x5A :=
  ⟨holding_rewrites _ _ _ rfl 0 _ (by decide) (.inl rfl), by decide +kernel,
    holding_rewrites _ _ _ rfl 0 _ (by decide) (.inl rfl), by decide +kernel⟩

theorem witness_RewriteKeepsTheHeaderCheck_no_tracker :
    let s := holding [] .done
    Rewrites 0 0 7 0 0x20000700 (command 7) s ∧ s.findTerm (BitVec.ofNat 16 (beatWord (command 7) 1)) = some 0 ∧
      (s.entry 0).ctx = some 2 ∧ (∀ t, (s.tracker t).st ≠ .free) :=
  ⟨holding_rewrites _ _ _ rfl 0 _ (by decide) (.inl rfl), by decide +kernel, rfl, by decide +kernel⟩

theorem witness_RewriteKeepsTheHeaderCheck_replaces :
    let s := holding [(7, .tracked 4 7)] .opened
    Rewrites 0 0 7 16 0x20000710 (full (50 * 2 ^ 32)) s ∧
      mapGet (s.ring 0).slotMap 7 = some (.tracked 4 (indexOf (s.ring 0) 7)) ∧ (s.tracker 4).st = .opened ∧
      (s.ring 0).desc.hold = true ∧ (s.tracker 4).state = .hold :=
  ⟨holding_rewrites _ _ _ rfl 16 _ (by decide) (.inr rfl), by decide +kernel, by decide +kernel, rfl, by decide +kernel⟩

theorem witness_FoldMovesTowardTheSample :
    1 ≤ Cfg.reset.kcfg ∧ 0 < ({ Cell.reset with n := 1, m := 1008 } : Cell).n ∧ (-1024 : Int) ≤ 1008 ∧
      (1008 : Int) ≤ 1008 ∧ (-1024 : Int) ≤ -1024 := by decide

/-- A RADIO_SURVEY of bin 3 with one pair: cell `cell`, margin 20 dB. -/
def survey (cell : Byte) : Frame :=
  Vector.ofFn fun i => if i.val = 10 then 1 else if i.val = 24 then 3 else if i.val = 32 then cell else if i.val = 33 then 20
    else (frame 4)[i]

theorem witness_FoldMovesTowardTheSample_survey :
    ∀ cell ∈ ([15, 16] : List Byte),
      let s : State := queued (survey cell) { up with ccu := { up.ccu with cfg := { Cfg.reset with coverageEn := true } } }
      let f := (s.buffer headEntry.buf).bytes
      Dispatches headEntry [] s ∧ s.ccu.cfg.coverageEn = true ∧ frameKind f = 4 ∧ frameCount f = 1 ∧ framePos f = 3 ∧
        pairCell f 0 = cell.toNat ∧ pairMargin f 0 = 20 ∧ framePos f < s.ccu.cfg.binCount ∧
        (pairCell f 0 < s.ccu.cfg.cellCount ↔ cell = 15) := by
  intro cell h
  refine ⟨⟨rfl, rfl, rfl, rfl, rfl, rfl⟩, rfl, ?_, ?_, ?_, ?_, ?_, ?_, ?_⟩ <;> decide +kernel +revert

theorem witness_FoldMovesTowardTheSample_header :
    let s := dispatching 5 { Cfg.reset with coverageEn := true } 0
    let f := (s.buffer headEntry.buf).bytes
    Dispatches headEntry [] s ∧ s.ccu.cfg.coverageEn = true ∧ 5 ≤ frameKind f ∧ frameCell f = (3 : Fin 16).val ∧
      frameMargin f = 20 ∧ s.findTerm (frameTid f) = some 0 ∧ (s.entry 0).homeBin = some 3 ∧
      (3 : Fin 64).val < s.ccu.cfg.binCount ∧ frameCell f < s.ccu.cfg.cellCount :=
  ⟨dispatching_dispatches _ _ _, rfl, by decide +kernel, by decide +kernel, by decide +kernel, by decide +kernel, rfl,
    by decide +kernel, by decide +kernel⟩

theorem witness_PositionGivesTheBin :
    let c : Cfg := { Cfg.reset with origin := 12000 }
    1 ≤ c.binWidth ∧ c.binCount ≤ 64 ∧ 11999 < c.origin ∧ c.binCount ≤ (332000 - c.origin) / c.binWidth ∧
      (331999 - c.origin) / c.binWidth = (63 : Fin 64).val ∧ (63 : Fin 64).val < c.binCount := by decide

theorem witness_AttentionFollowsThePublishedRings :
    up.pins.inReset = false ∧ State.reset.pins.inReset = true ∧
      exec (.pinReset true) up = .next (pinReset true up) ∧
      exec (.resetRelease 1) (pinReset true up) = .next (releaseReset 1 (pinReset true up)) := ⟨rfl, rfl, rfl, rfl⟩

theorem witness_OnlyTimeCommandsMoveTheClocks :
    exec .dlinkGrant State.reset = .next State.reset ∧ (∀ p, Instr.dlinkGrant ≠ .pinReset p) ∧
      Instr.dlinkGrant ≠ .setTime ∧ Instr.dlinkGrant ≠ .adjustTime := ⟨rfl, by simp, by simp, by simp⟩

theorem witness_StepsKeepTheShadowInRange : up.ShadowInRange ∧ step up = .next (tick up) := by
  refine ⟨?_, rfl⟩
  unfold State.ShadowInRange
  constructor <;> first | decide +kernel | skip
  intro p
  constructor <;> revert p <;> decide +kernel

theorem witness_StepsKeepTheInjectionQueue : up.QueueFits ∧ step up = .next (tick up) :=
  ⟨⟨by decide +kernel, .inl rfl⟩, rfl⟩

theorem witness_StepsKeepTheGridLawful : up.ShadowInRange ∧ up.GridLawful ∧ step up = .next (tick up) := by
  refine ⟨witness_StepsKeepTheShadowInRange.1, fun b => ?_, rfl⟩
  simp [State.bin, up, State.reset, Cvm.reset, Bin.reset, Bin.Lawful, Cell.reset, Cell.Lawful]

/-! ## Single steps, with values taken from the rules -/

/-- The state a command leaves; pin reset where it stops. -/
def after (c : Instr) (s : State) : State :=
  match exec c s with
  | .next t => t
  | _ => State.reset

/-- R15: the refused write is answered ERROR at once and nothing of it is forwarded. -/
theorem test_owned_write_answered_error :
    (after (.ulinkWrite 4 0x10008000 [full 1]) up).lif.uOut = [{ initiator := 4, ok := false, data := [] }] ∧
      (after (.ulinkWrite 4 0x10008000 [full 1]) up).lif.forwardPath = [] := by decide +kernel

/-- R8: half a producer word is held and hands on no value; the initiator has no answer. -/
theorem test_half_producer_word_is_held :
    let s := after (.ulinkWrite 5 0x20001000 [packBeat 0 [8, 0]]) (withRing0 uplink)
    (s.slot 0).status = .holding ∧ (s.slot 0).pend = [(0, 8), (1, 0)] ∧ (s.ring 0).commit = none ∧ s.lif.uOut = [] := by
  decide +kernel

/-- R35: a producer value 9 slots ahead of an 8-slot ring resyncs it: P and C become the value, the write is released. -/
theorem test_producer_too_far_resyncs :
    let s := after (.ulinkWrite 5 0x20001000 [packBeat 0 [9, 0, 0, 0]]) (withRing0 uplink)
    (s.ring 0).prod = 9 ∧ (s.ring 0).cons = 9 ∧ (s.ring 0).resyncs = 1 ∧ s.lif.forwardPath.length = 1 ∧
      (s.slot 0).status = .empty := by decide +kernel

/-- R45: a consumer value ahead of P is invalid and leaves C. -/
theorem test_consumer_ahead_is_invalid :
    let s := after (.ulinkWrite 5 0x20001010 [packBeat 0 [4, 0, 0, 0]]) filled
    (s.ring 0).cons = 0 ∧ s.rpw.events.map (fun q => q.kind) = [.indexInvalid] := by decide +kernel

/-- R18: with c = PASS_SHARE and both waiting the injection queue is granted, and c is 0. -/
theorem test_injection_granted_at_the_share :
    let s := after .dlinkGrant (linked { Lif.reset with forwardPath := [fwd], injQueue := [inj false], arbCount := 4 })
    s.lif.injQueue = [] ∧ s.lif.forwardPath = [fwd] ∧ s.lif.arbCount = 0 := by decide +kernel

/-- R1, R5: a read whose burst counts past the last byte of the address space is forwarded as it arrives. -/
theorem test_read_past_the_end_is_forwarded :
    (after (.ulinkRead 2 0xFFFFFFF0 2) up).lif.forwardPath.map (fun t => (t.addr, t.burst)) = [(0xFFFFFFF0, 2)] := by
  decide +kernel

/-- R6: half of REGISTER_TERMINAL's terminal id stays pending; the byte of its kind arrives. -/
theorem test_half_argument_stays_pending :
    let s := after (.ulinkWrite 5 0x10001000 [packBeat 10 [2]]) (after (.ulinkWrite 5 0x10001000 [packBeat 8 [7]])
      (after (.ulinkWrite 5 0x10001000 [packBeat 0 [0x10]]) up))
    s.lif.hostShadow = [(0x1008, 7)] ∧ rdLe s.nextRecord 8 2 = 0 ∧ rdLe s.nextRecord 10 1 = 2 ∧
      s.ccu.capturedFrom = some 5 := by decide +kernel

/-- R82: the deadline of a bound crane has passed, so its status frame waits for the expiry. -/
theorem test_expiry_before_the_frame :
    let s := dispatching 1 { Cfg.reset with craneEn := true } 0x0101
    let late : State := { s with tbs := { s.tbs with runClock := 1 } }
    (after .dispatchFrame late).rmn.dispatch.length = 1 ∧
      (after .dispatchFrame (after (.deadlineExpiry 2) late)).rmn.dispatch.length = 0 := by decide +kernel

/-- R106: with the four ways of the tag's set taken, REEFER_TABLE_FULL that finds no place keeps the frame at the head. -/
theorem test_table_full_event_holds_the_frame :
    let s := withReefer 1872 other (withReefer 1873 other (withReefer 1874 other (withReefer 1875 other (queued report up))))
    let s : State := { s with ccu := { s.ccu with cfg := { Cfg.reset with reeferEn := true } } }
    let full : State := { s with lif := { s.lif with injQueue := List.replicate 16 (inj false) } }
    (after .dispatchFrame full).rmn.dispatch.length = 1 ∧
      (after .dispatchFrame full).rpw.events.map (fun q => q.kind) = [.terminalLearned, .reeferTableFull] ∧
      (after .dispatchFrame s).rmn.dispatch.length = 0 := by decide +kernel

/-- R96: a skipped slot does not commit while its event would find no place. -/
theorem test_skip_waits_for_a_place :
    let s := downCommitting [(0, .skipped .order none 0)]
    let full : State := { s with lif := { s.lif with injQueue := List.replicate 16 (inj false) } }
    ((after (.downlinkSlotCommit 0) full).ring 0).prod = 0 ∧ ((after (.downlinkSlotCommit 0) s).ring 0).prod = 1 := by
  decide +kernel

/-- R38: the receipt of an UNCAPTURED slot of ring 0, index 0, at site time 0. -/
theorem test_receipt_of_an_uncaptured_slot :
    let s := after (.slotCommit 0) (withRing0 committing)
    s.lif.injQueue.map (fun e => (e.addr, e.beats)) =
      [(0x200000F0, [{ data := 0x0805A5, strobes := 0xFFFF }])] := by decide +kernel

/-- R72: a LIVE crane that misses its deadline is DEGRADED with one miss, and its countdown runs again. -/
theorem test_missed_deadline_degrades :
    let s := after (.deadlineExpiry 2) (expired .live 0)
    (s.crane 2).st = .degraded ∧ (s.crane 2).miss = 1 ∧ (s.crane 2).countdown = some 5060 := by decide +kernel

/-- R154: SET_TIME to 0x0102 at run clock 0. -/
theorem test_set_time :
    (after .setTime (asking [0x01, 0, 0, 0, 0, 0, 0, 0, 2, 1] up)).site = 0x0102 := by decide +kernel

/-- R154: ADJUST_TIME by −1. -/
theorem test_adjust_time_backward :
    (after .adjustTime (asking [0x02, 0, 0, 0, 0, 0, 0, 0, 0xFF, 0xFF, 0xFF, 0xFF] up)).site = 0xFFFFFFFFFFFFFFFF := by
  decide +kernel

/-- R181: the status byte of NOP, DONE = 1, and completion time 0 are bytes 1 to 7 of the record. -/
theorem test_nop_status_write :
    (after .nop (asking [0x00] up)).lif.injQueue.map (fun e => (e.addr, e.beats)) =
      [(0x10001000, [{ data := 0x100, strobes := 0x00FE }])] := by decide +kernel

/-- R180: a record of another code is not taken by this command. -/
theorem test_other_record_not_taken :
    (after .setTime (asking [0x00] up)).rpw.exec = .idle ∧ (after .setTime (asking [0x00] up)).tbs.offset = 0 := by
  decide +kernel

/-- R158: an edge while a sweep runs under PIN is an overrun. -/
theorem test_edge_during_a_sweep_overruns :
    let s := sweepingAt .grid 5
    let t := after .sweepInEdge { s with tbs := { s.tbs with latchedSel := .pin } }
    t.tbs.restart = true ∧ t.tbs.overruns = 1 ∧ t.tbs.cursor = 5 := by decide +kernel

/-- R190: the line is high for ATTN_POL 1 when the event ring holds a published record and ATTN is enabled. -/
theorem test_attention_level :
    let s : State := { up with
      pins := { up.pins with attnPol := true }
      ccu := { up.ccu with cfg := { Cfg.reset with attnEn := true } }
      rpw := { up.rpw with pubEv := 1 } }
    s.attnN = true ∧ ({ s with rpw := { s.rpw with evCons := 1 } } : State).attnN = false := by decide +kernel

end Sys2Proof.Tests
end

section
/-! # Crane link supervision: BIND_CRANE (04_crane_link_supervision.md, R62, R63)

The executor's part first: a record taken where its body raises no event. Then the cases of `doBind`, then the obligation. -/

namespace Sys2Proof.Machine

open Sys2Proof.Claims

/-! ## A record that is taken -/

/-- `s` with its record in progress and no result yet: what the executor hands to a command's body (R179). -/
def underWay (s : State) : State := s.onRpw fun r => { r with exec := .executing, result := none }

/-- A record that the executor takes is due (R179). -/
theorem commandDue_of_takes {k : CommandKind} {s : State} (h : Takes k s) : s.commandDue k = true := by
  have waits (b : Block) : s.waits b = false := (blocked_quiet s b h.ready.quiet).1
  have running : s.running = true := by simp [State.running, h.running]
  exact (commandDue_iff k s).mpr
    ⟨h.ready.released, h.idle, running, h.waiting, waits .rpw, waits k.owner, .inl h.calm, h.code⟩

/-- No event is marked where none was raised. -/
theorem markCommandEvents_silent (s : State) : markCommandEvents s.rpw.events.length s = s := by
  rw [markCommandEvents_append s s.rpw.events [] (List.append_nil _).symm]
  simp [State.onRpw]

/-- The status write of a command that raised no event joins at once (R180, R181). -/
theorem settle_completeCommand_underWay (st : Status) (t : State) (quiet : t.lif.injWaiting = [])
    (room : t.lif.injQueue.length < Config.injectionDepth) (taken : ∀ q ∈ t.rpw.events, q.ofCommand = false) :
    settle (completeCommand st (underWay t)) = completed st t := by
  rw [completeCommand_silent st (underWay t) rfl taken]
  exact settle_status ((underWay t).onRpw fun r => { r with result := some st }) _ _ quiet room

/-- A command that is taken, its job on, and whose body leads to `t` without touching the report writer or the link interface
completes at once with the body's status (R179 to R181). -/
theorem takeCommand_silent {k : CommandKind} {body : Record → State → State × Status} {s t : State} {st : Status}
    (h : Takes k s) (outcome : body s.nextRecord (underWay s) = (underWay t, st)) (rpw : t.rpw = s.rpw)
    (lif : t.lif = s.lif) : takeCommand k true body s = .next (completed st t) := by
  have unmarked : markCommandEvents s.rpw.events.length (underWay t) = underWay t := by
    rw [← rpw]
    exact markCommandEvents_silent (underWay t)
  have run : runCommand true body s = completeCommand st (underWay t) := by
    change completeCommand (body s.nextRecord (underWay s)).2
      (markCommandEvents s.rpw.events.length (body s.nextRecord (underWay s)).1) = _
    rw [outcome, unmarked]
  have quiet : t.lif.injWaiting = [] := lif ▸ h.ready.quiet
  have room : t.lif.injQueue.length < Config.injectionDepth := by
    have := h.ready.room
    simp only [lif, Config.injectionDepth]
    omega
  have taken : ∀ q ∈ t.rpw.events, q.ofCommand = false := rpw ▸ h.taken
  rw [takeCommand, commandDue_of_takes h, stepWhen_true, run, settle_completeCommand_underWay st t quiet room taken]

/-! ## Operands -/

/-- The value of an index reads back as that index. -/
@[simp] theorem finOf_val {n : Nat} (k : Fin n) : finOf n k.val = some k := dif_pos k.isLt

/-- A number from `n` on is no index below `n`. -/
theorem finOf_eq_none {n v : Nat} (h : n ≤ v) : finOf n v = none := dif_neg (Nat.not_lt.mpr h)

/-- The terminal ids 0 and 0xFFFF are never found (R46). -/
theorem findTerm_reserved (s : State) {id : BitVec 16} (h : id = 0 ∨ id = 0xFFFF) : s.findTerm id = none := if_pos h

/-! ## The tests of BIND_CRANE, in the order of R62 -/

/-- A context number above 31 is a bad argument. -/
theorem doBind_badArgument (q : Record) (s : State) (h : 32 ≤ rdLe q 8 1) : doBind q s = (s, .badArgument) := by
  simp [doBind, finOf_eq_none h]

section
variable {q : Record} {s : State} {k : Fin 32} {i : Fin 256} (context : rdLe q 8 1 = k.val)
include context

/-- A bound context refuses the command. -/
theorem doBind_wrongState (bound : (s.crane k).st ≠ .unbound) : doBind q s = (s, .wrongState) := by
  simp [doBind, context, bound]

variable (unbound : (s.crane k).st = .unbound)
include unbound

/-- A terminal without an entry is not found. -/
theorem doBind_notFound (absent : s.findTerm (BitVec.ofNat 16 (rdLe q 10 2)) = none) :
    doBind q s = (s, .notFound) := by
  simp [doBind, context, unbound, absent]

variable (found : s.findTerm (BitVec.ofNat 16 (rdLe q 10 2)) = some i)
include found

/-- A terminal that is not a registered crane is not found either. -/
theorem doBind_notCrane (other : (s.entry i).st ≠ .registered ∨ (s.entry i).kind ≠ .crane) :
    doBind q s = (s, .notFound) := by
  simp only [doBind, context, finOf_val, unbound, found, if_pos other, ne_eq, not_true_eq_false, if_false]

variable (registered : (s.entry i).st = .registered) (crane : (s.entry i).kind = .crane)
include registered crane

/-- A crane terminal that names a context is in use. -/
theorem doBind_inUse (named : (s.entry i).ctx ≠ none) : doBind q s = (s, .inUse) := by
  simp [doBind, context, unbound, found, registered, crane, Option.isSome_iff_ne_none.mpr named]

/-- A crane terminal that names no context is bound (R63). -/
theorem doBind_done (free : (s.entry i).ctx = none) : doBind q s = (bindContext k i q s, .done) := by
  simp [doBind, context, unbound, found, registered, crane, free]

end

/-! ## The outcome of BIND_CRANE -/

/-- A binding neither reads nor changes the executor. -/
theorem bindContext_underWay (k : Fin 32) (i : Fin 256) (q : Record) (s : State) :
    bindContext k i q (underWay s) = underWay (bindContext k i q s) := rfl

/-- BIND_CRANE with its job on completes with what `doBind` gives on the record in progress. -/
theorem exec_bindCrane {s t : State} {st : Status} (h : Takes .bindCrane s) (on : s.ccu.cfg.craneEn = true)
    (outcome : doBind s.nextRecord (underWay s) = (underWay t, st)) (rpw : t.rpw = s.rpw) (lif : t.lif = s.lif) :
    exec .bindCrane s = .next (completed st t) := by
  change takeCommand .bindCrane s.ccu.cfg.craneEn doBind s = _
  rw [on]
  exact takeCommand_silent h outcome rpw lif

/-- A BIND_CRANE that `doBind` refuses changes nothing but the executor. -/
theorem exec_bindCrane_refused {s : State} {st : Status} (h : Takes .bindCrane s) (on : s.ccu.cfg.craneEn = true)
    (outcome : doBind s.nextRecord (underWay s) = (underWay s, st)) : exec .bindCrane s = .next (completed st s) :=
  exec_bindCrane h on outcome rfl rfl

/-- Settles O33: one case of `doBind` for each clause. That a record is in progress hides nothing of the contexts and the
directory, so the tests read the same before and after it is taken; the state that the last clause writes out is
`bindContext`'s, field by field. -/
theorem bindCraneBindsTheContext : Obligations.BindCraneBindsTheContext := by
  intro s k i h on
  refine ⟨?badArgument, ?wrongState, ?notFound, ?notCrane, ?inUse, ?done⟩
  case badArgument =>
    intro beyond
    exact exec_bindCrane_refused h on (doBind_badArgument _ _ beyond)
  case wrongState =>
    intro context bound
    exact exec_bindCrane_refused h on (doBind_wrongState context bound)
  case notFound =>
    intro context unbound missing
    have absent := missing.elim id (findTerm_reserved s)
    exact exec_bindCrane_refused h on (doBind_notFound context unbound absent)
  case notCrane =>
    intro context unbound found other
    exact exec_bindCrane_refused h on (doBind_notCrane context unbound found other)
  case inUse =>
    intro context unbound found registered crane named
    exact exec_bindCrane_refused h on (doBind_inUse context unbound found registered crane named)
  case done =>
    intro context unbound found registered crane free
    have bound : doBind s.nextRecord (underWay s) = (underWay (bindContext k i s.nextRecord s), .done) := by
      rw [doBind_done (s := underWay s) context unbound found registered crane free, bindContext_underWay]
    exact exec_bindCrane h on bound rfl rfl

end Sys2Proof.Machine
end

section
/-! # Quay coverage map: the bin of a gantry position (07_quay_coverage_map.md, R128)

One equation for each branch of `positionBin`, then the obligation. -/

namespace Sys2Proof.Machine

/-- A position before the origin has no bin. -/
theorem positionBin_before_origin {c : Cfg} {p : Nat} (before : p < c.origin) : positionBin c p = none :=
  if_pos before

/-- From the origin on the bin is the distance in whole bin widths, where the bin count is above it. -/
theorem positionBin_from_origin {c : Cfg} {p : Nat} (reached : c.origin ≤ p) :
    positionBin c p =
      if (p - c.origin) / c.binWidth < c.binCount then finOf 64 ((p - c.origin) / c.binWidth) else none :=
  if_neg (Nat.not_lt.mpr reached)

/-- Settles O54: the two sides of the origin, and beyond it the two sides of the bin count. A quotient that is the value of a
bin index reads back as that index. -/
theorem positionGivesTheBin : Obligations.PositionGivesTheBin := by
  intro c p _ _
  refine ⟨positionBin_before_origin, ?beyond, ?within⟩
  case beyond =>
    intro reached beyond
    rw [positionBin_from_origin reached, if_neg (Nat.not_lt.mpr beyond)]
  case within =>
    intro b reached quotient within
    rw [positionBin_from_origin reached, quotient, if_pos within, finOf_val]

end Sys2Proof.Machine
end

section
/-! # Commands, events and the attention line: ATTN_N (10_commands_events_and_the_attention_line.md, R190)

What `ringNonEmpty`, `State.attention` and `State.attnN` say, out of reset and in reset, then the state that a pin reset and
its release leave, then the obligation. -/

namespace Sys2Proof.Machine

/-- A ring is non-empty when its published producer is 1 to 1024 ahead of its consumer shadow. -/
theorem ringNonEmpty_iff (p c : Word) : ringNonEmpty p c = true ↔ 1 ≤ (p - c).toNat ∧ (p - c).toNat ≤ 1024 := by
  rw [ringNonEmpty, Bool.and_eq_true, decide_eq_true_iff, decide_eq_true_iff, Config.outputRingSize]

/-- Out of reset the line is asserted by the event ring, and by the digest ring where that is enabled too. -/
theorem attention_released_iff {s : State} (released : s.pins.inReset = false) :
    s.attention = true ↔ s.ccu.cfg.attnEn = true ∧ (ringNonEmpty s.rpw.pubEv s.rpw.evCons = true ∨
      (s.ccu.cfg.attnDigest = true ∧ ringNonEmpty s.rpw.pubDg s.rpw.dgCons = true)) := by
  simp [State.attention, released]

/-- With ATTN enable off the line is deasserted. -/
theorem attention_disabled {s : State} (off : s.ccu.cfg.attnEn = false) : s.attention = false := by
  simp [State.attention, off]

/-- In reset the pin stands at the deasserted level of the ATTN_POL pin. -/
theorem attnN_inReset {s : State} (asserted : s.pins.inReset = true) : s.attnN = !s.pins.attnPolPin := if_pos asserted

/-- Out of reset the pin follows the line, with the polarity that was sampled. -/
theorem attnN_released {s : State} (released : s.pins.inReset = false) :
    s.attnN = if s.attention then s.pins.attnPol else !s.pins.attnPol :=
  if_neg (by simp [released])

/-- PIN_RESET leads to the reset state. -/
theorem exec_pinReset (p : Bool) (s : State) : exec (.pinReset p) s = .next (pinReset p s) := rfl

/-- RESET_RELEASE after a pin reset only releases it: no request of the reset state waits to join. -/
theorem exec_resetRelease_pinReset (ca : BitVec 8) (p : Bool) (s : State) :
    exec (.resetRelease ca) (pinReset p s) = .next (releaseReset ca (pinReset p s)) := by
  change Host.Outcome.next (stepWhen true (releaseReset ca) (pinReset p s)) = _
  rw [stepWhen_true, settle_idle _ rfl]

/-- A pin reset turns ATTN enable off, so the line is deasserted at the release. -/
theorem attention_releaseReset_pinReset (ca : BitVec 8) (p : Bool) (s : State) :
    (releaseReset ca (pinReset p s)).attention = false := attention_disabled rfl

/-- At the release of a pin reset the pin is at the deasserted level of the polarity just sampled. -/
theorem attnN_releaseReset_pinReset (ca : BitVec 8) (p : Bool) (s : State) :
    (releaseReset ca (pinReset p s)).attnN = !p := by
  rw [attnN_released rfl, attention_releaseReset_pinReset]
  rfl

/-- Settles O55: the line out of reset, the pin in reset, and the pin after a pin reset and its release, where the only
state that the two commands lead to is `releaseReset` of `pinReset`. -/
theorem attentionFollowsThePublishedRings : Obligations.AttentionFollowsThePublishedRings := by
  intro s nonEmpty
  refine ⟨?released, attnN_inReset, ?afterReset⟩
  case released =>
    intro released
    refine ⟨?_, attnN_released released⟩
    rw [attention_released_iff released, ringNonEmpty_iff, ringNonEmpty_iff]
  case afterReset =>
    intro p ca t u reset release
    obtain rfl : pinReset p s = t := Host.Outcome.next.inj ((exec_pinReset p s).symm.trans reset)
    obtain rfl : releaseReset ca (pinReset p s) = u :=
      Host.Outcome.next.inj ((exec_resetRelease_pinReset ca p s).symm.trans release)
    exact ⟨attention_releaseReset_pinReset ca p s, attnN_releaseReset_pinReset ca p s⟩

end Sys2Proof.Machine
end

section
/-! # What every step keeps: the relation (R16, R105, R129, R152, R153, R167, R168)

`Steady s t` says what the operations below leave of a state `s` that they take to `t`: the clocks and the injection queue are
as they were, a shadow in its ranges stays in them, and a lawful grid stays lawful. It is closed under every update of a block
that leaves those alone, so each operation of the model has one lemma, proved from the lemmas of the operations it calls. -/

namespace Sys2Proof.Machine

/-- The clocks and the injection queue of `s` are those of `t`, and the laws of the shadow and of the grid pass to `t`. -/
structure Steady (s t : State) : Prop where
  clock : t.tbs.runClock = s.tbs.runClock
  offset : t.tbs.offset = s.tbs.offset
  queue : t.lif.injQueue = s.lif.injQueue
  shadow : s.ShadowInRange → t.ShadowInRange
  grid : s.ShadowInRange → s.GridLawful → t.GridLawful

section
variable {s t u : State}

@[simp] theorem steady_refl (s : State) : Steady s s := ⟨rfl, rfl, rfl, id, fun _ => id⟩

theorem Steady.trans (h : Steady s t) (k : Steady t u) : Steady s u :=
  ⟨k.clock.trans h.clock, k.offset.trans h.offset, k.queue.trans h.queue, k.shadow ∘ h.shadow,
    fun shadow grid => k.grid (h.shadow shadow) (h.grid shadow grid)⟩

/-- States that agree on the clocks, the injection queue, the shadow and the bins are alike. -/
theorem steady_agree (clock : u.tbs.runClock = t.tbs.runClock) (offset : u.tbs.offset = t.tbs.offset)
    (queue : u.lif.injQueue = t.lif.injQueue) (cfg : u.ccu.cfg = t.ccu.cfg) (bins : u.cvm.bins = t.cvm.bins) :
    Steady s u ↔ Steady s t := by
  have there : Steady t u := by
    refine ⟨clock, offset, queue, ?_, ?_⟩
    · simp only [State.ShadowInRange, cfg, imp_self]
    · simp only [State.GridLawful, State.bin, bins]
      exact fun _ => id
  have back : Steady u t := by
    refine ⟨clock.symm, offset.symm, queue.symm, ?_, ?_⟩
    · simp only [State.ShadowInRange, cfg, imp_self]
    · simp only [State.GridLawful, State.bin, bins]
      exact fun _ => id
  exact ⟨fun h => h.trans back, fun h => h.trans there⟩

/-- What follows a steady step, and is steady itself from any state, is steady. -/
theorem Steady.foldl {α : Type} {f : State → α → State} (h : Steady s t) (step : ∀ v a, Steady v (f v a)) (l : List α) :
    Steady s (l.foldl f t) := by
  induction l generalizing t with
  | nil => exact h
  | cons a l ih => exact ih (h.trans (step t a))

/-! ## Updates of one block -/

@[simp] theorem steady_onPins (f : Pins → Pins) : Steady s (t.onPins f) ↔ Steady s t := steady_agree rfl rfl rfl rfl rfl
@[simp] theorem steady_onRmn (f : Rmn → Rmn) : Steady s (t.onRmn f) ↔ Steady s t := steady_agree rfl rfl rfl rfl rfl
@[simp] theorem steady_onTdr (f : Tdr → Tdr) : Steady s (t.onTdr f) ↔ Steady s t := steady_agree rfl rfl rfl rfl rfl
@[simp] theorem steady_onCsv (f : Vector Crane 32 → Vector Crane 32) : Steady s (t.onCsv f) ↔ Steady s t :=
  steady_agree rfl rfl rfl rfl rfl
@[simp] theorem steady_onRfm (f : Rfm → Rfm) : Steady s (t.onRfm f) ↔ Steady s t := steady_agree rfl rfl rfl rfl rfl
@[simp] theorem steady_onRpw (f : Rpw → Rpw) : Steady s (t.onRpw f) ↔ Steady s t := steady_agree rfl rfl rfl rfl rfl
@[simp] theorem steady_onRing (r : Fin 16) (f : Ring → Ring) : Steady s (t.onRing r f) ↔ Steady s t :=
  steady_agree rfl rfl rfl rfl rfl
@[simp] theorem steady_onSlot (r : Fin 16) (f : HeldSlot → HeldSlot) : Steady s (t.onSlot r f) ↔ Steady s t :=
  steady_agree rfl rfl rfl rfl rfl
@[simp] theorem steady_onBuffer (b : Fin 64) (f : Buffer → Buffer) : Steady s (t.onBuffer b f) ↔ Steady s t :=
  steady_agree rfl rfl rfl rfl rfl
@[simp] theorem steady_onTracker (k : Fin 8) (f : Tracker → Tracker) : Steady s (t.onTracker k f) ↔ Steady s t :=
  steady_agree rfl rfl rfl rfl rfl
@[simp] theorem steady_onEntry (i : Fin 256) (f : Terminal → Terminal) : Steady s (t.onEntry i f) ↔ Steady s t :=
  steady_agree rfl rfl rfl rfl rfl
@[simp] theorem steady_onCrane (k : Fin 32) (f : Crane → Crane) : Steady s (t.onCrane k f) ↔ Steady s t :=
  steady_agree rfl rfl rfl rfl rfl
@[simp] theorem steady_onReefer (i : Fin 2048) (f : Reefer → Reefer) : Steady s (t.onReefer i f) ↔ Steady s t :=
  steady_agree rfl rfl rfl rfl rfl

@[simp] theorem steady_onLif (f : Lif → Lif) (queue : ∀ l, (f l).injQueue = l.injQueue) : Steady s (t.onLif f) ↔ Steady s t :=
  steady_agree rfl rfl (queue _) rfl rfl
@[simp] theorem steady_onCvm (f : Cvm → Cvm) (bins : ∀ m, (f m).bins = m.bins) : Steady s (t.onCvm f) ↔ Steady s t :=
  steady_agree rfl rfl rfl rfl (bins _)
@[simp] theorem steady_onTbs (f : Tbs → Tbs) (clock : ∀ b, (f b).runClock = b.runClock)
    (offset : ∀ b, (f b).offset = b.offset) : Steady s (t.onTbs f) ↔ Steady s t :=
  steady_agree (clock _) (offset _) rfl rfl rfl
@[simp] theorem steady_onCcu (f : Ccu → Ccu) (cfg : ∀ c, (f c).cfg = c.cfg) : Steady s (t.onCcu f) ↔ Steady s t :=
  steady_agree rfl rfl rfl (cfg _) rfl

@[simp] theorem steady_raise (b : Block) (k : EventKind) (sk : SubjKind) (n : Nat) (d0 d1 d2 : Int) :
    Steady s (t.raise b k sk n d0 d1 d2) ↔ Steady s t := steady_agree rfl rfl rfl rfl rfl
@[simp] theorem steady_ask (b : Block) (op : InjOp) : Steady s (t.ask b op) ↔ Steady s t :=
  steady_agree rfl rfl rfl rfl rfl
@[simp] theorem steady_askFirst (b : Block) (op : InjOp) : Steady s (t.askFirst b op) ↔ Steady s t :=
  steady_agree rfl rfl rfl rfl rfl
@[simp] theorem steady_respond (x : Fin 16) (ok : Bool) (data : List (BitVec 128)) : Steady s (t.respond x ok data) ↔ Steady s t :=
  steady_agree rfl rfl rfl rfl rfl

end

/-! ## The terminal directory -/

section
variable {s t : State} (h : Steady s t)
include h

@[simp] theorem steady_freeTerm (i : Fin 256) : Steady s (freeTerm i t) := by simp [freeTerm, h]
@[simp] theorem steady_touchTerm (i : Fin 256) (f : Frame) (n : Nat) : Steady s (touchTerm i f n t) := by simp [touchTerm, h]
@[simp] theorem steady_learnTerm (i : Fin 256) (r : Fin 16) (f : Frame) : Steady s (learnTerm i r f t) := by
  simp [learnTerm, h]

@[simp] theorem steady_dirStep (r : Fin 16) (f : Frame) (n : Nat) : Steady s (dirStep r f n t).1 := by
  unfold dirStep
  simp only
  split
  · exact h
  · split
    · simp [h]
    · split <;> simp [h]

@[simp] theorem steady_newRegistered (i : Fin 256) (id : BitVec 16) (k : TermKind) (b : Option (Fin 64)) :
    Steady s (newRegistered i id k b t) := by simp [newRegistered, h]

@[simp] theorem steady_doRegister (q : Record) : Steady s (doRegister q t).1 := by
  unfold doRegister
  simp only
  split
  · split
    · exact h
    · split
      · unfold reRegister
        simp only
        split <;> simp [h]
      · unfold registerNew
        split
        · simp [h]
        · split <;> simp [h]
  · exact h

@[simp] theorem steady_doDeregister (q : Record) : Steady s (doDeregister q t).1 := by
  unfold doDeregister
  split
  · exact h
  · split <;> simp [h]

@[simp] theorem steady_ageTerm (i : Fin 256) : Steady s (ageTerm i t) := by
  unfold ageTerm
  simp only
  split <;> simp [h]

end

/-! ## The coverage mapper: the law of the grid (R129) -/

/-- A bin's best candidate is one of its candidates. -/
theorem bestOf_mem {b : Bin} {l : List (Fin 16)} {i : Fin 16} (h : bestOf b l = some i) : i ∈ l := by
  induction l generalizing i with
  | nil => cases h
  | cons j l ih =>
    unfold bestOf at h
    split at h
    · cases h
      exact List.mem_cons_self
    · next best hb =>
      split at h <;> cases h
      · exact List.mem_cons_self
      · exact List.mem_cons_of_mem _ (ih hb)

/-- The preferred cell of an evaluation is a candidate. -/
theorem prefOf_mem {c : Cfg} {b : Bin} {l : List (Fin 16)} {i : Fin 16} (h : prefOf c b l = some i) : i ∈ l := by
  unfold prefOf at h
  split at h
  · cases h
  · next best hb =>
    split at h
    · cases h
      exact bestOf_mem hb
    · split at h
      · next kept =>
        cases h
        exact kept.1
      · cases h
        exact bestOf_mem hb

/-- Every candidate is GOOD (R137). -/
theorem good_of_mem_candidates {c : Cfg} {attach : Vector Nat 16} {b : Bin} {i : Fin 16} (h : i ∈ candidates c attach b) :
    b.cells[i].st = .good := by
  have good : i ∈ cellsIn c b .good := by
    unfold candidates at h
    simp only at h
    split at h
    · exact h
    · split at h
      · exact h
      · exact List.mem_of_mem_filter h
  simpa using (List.mem_filter.mp good).2

/-- A bin of lawful cells is lawful once it is evaluated. -/
theorem evaluated_lawful {c : Cfg} {attach : Vector Nat 16} {b : Bin} {hole : Bool}
    (cells : ∀ i : Fin 16, (b.cells[i]).Lawful) :
    ({ b with hole := hole, pref := prefOf c b (candidates c attach b) } : Bin).Lawful :=
  ⟨cells, fun _ chosen => good_of_mem_candidates (prefOf_mem chosen)⟩

section
variable {s t : State} (h : Steady s t)
include h

@[simp] theorem steady_holeEvent (b : Fin 64) (cause : EvalCause) (old : Bool) (c : Cfg) (row : Bin) :
    Steady s (holeEvent b cause old c row t) := by
  unfold holeEvent
  split
  · simp [h]
  · split <;> simp [h]

@[simp] theorem steady_prefEvent (b : Fin 64) (cause : EvalCause) (old new : Option (Fin 16)) :
    Steady s (prefEvent b cause old new t) := by
  unfold prefEvent
  split <;> simp [h]

end

/-- Bin `b` of `s` after an evaluation (R136 to R138). -/
def evaluatedRow (s : State) (b : Fin 64) : Bin :=
  let row := s.bin b
  { row with hole := holeOf s.ccu.cfg row, pref := prefOf s.ccu.cfg row (candidates s.ccu.cfg s.tdr.attach row) }

/-- An evaluation changes the bin's row and raises its events. -/
theorem evalBin_eq (b : Fin 64) (cause : EvalCause) (s : State) :
    evalBin b cause s = prefEvent b cause (s.bin b).pref (evaluatedRow s b).pref
      (holeEvent b cause (s.bin b).hole s.ccu.cfg (s.bin b) (s.onBin b fun _ => evaluatedRow s b)) := by
  rfl

/-- A change of one bin's row keeps the grid's law where the new row is lawful. -/
theorem steady_onBin {s : State} {b : Fin 64} {f : Bin → Bin}
    (row : s.ShadowInRange → (∀ d, d ≠ b → (s.bin d).Lawful) → (s.bin b).Lawful → (f (s.bin b)).Lawful) :
    Steady s (s.onBin b f) := by
  refine ⟨rfl, rfl, rfl, id, fun shadow grid d => ?_⟩
  by_cases same : d = b
  · subst same
    rw [State.onBin_bin]
    exact row shadow (fun e _ => grid e) (grid d)
  · rw [State.onBin_bin_ne _ _ _ _ same]
    exact grid d

/-- A change of one bin's cells followed by its evaluation keeps the grid's law where the new cells are lawful. -/
theorem steady_evalBin_onBin (b : Fin 64) (cause : EvalCause) (s : State) (f : Bin → Bin)
    (cells : s.ShadowInRange → (s.bin b).Lawful → ∀ i : Fin 16, ((f (s.bin b)).cells[i]).Lawful) :
    Steady s (evalBin b cause (s.onBin b f)) := by
  rw [evalBin_eq]
  refine steady_prefEvent (steady_holeEvent ?_ ..) ..
  have twice : ((s.onBin b f).onBin b fun _ => evaluatedRow (s.onBin b f) b) =
      s.onBin b fun _ => evaluatedRow (s.onBin b f) b := by
    simp [State.onBin, State.onCvm, upd]
  rw [twice]
  refine steady_onBin fun shadow _ lawful => evaluated_lawful ?_
  rw [State.onBin_bin]
  exact cells shadow lawful

@[simp] theorem steady_evalBin {s t : State} (h : Steady s t) (b : Fin 64) (cause : EvalCause) :
    Steady s (evalBin b cause t) := by
  have unchanged : t = t.onBin b id := by simp [State.onBin, State.onCvm, upd]
  rw [unchanged]
  exact h.trans (steady_evalBin_onBin b cause t id fun _ lawful => lawful.1)

/-! ## The estimator (R133) -/

/-- A step toward a sample, rounded by at least one binary place, does not pass it. -/
theorem roundStep_between (d : Int) (k : Nat) (hk : 1 ≤ k) :
    (0 ≤ d → 0 ≤ roundStep d k ∧ roundStep d k ≤ d) ∧ (d ≤ 0 → d ≤ roundStep d k ∧ roundStep d k ≤ 0) := by
  obtain ⟨j, rfl⟩ : ∃ j, k = j + 1 := ⟨k - 1, by omega⟩
  have half : 0 < 2 ^ j := Nat.two_pow_pos j
  have short : (d.natAbs + 2 ^ j) / 2 ^ (j + 1) ≤ d.natAbs := by
    rw [Nat.pow_succ]
    rcases Nat.eq_zero_or_pos d.natAbs with zero | pos
    · rw [zero, Nat.zero_add, Nat.div_eq_of_lt (by omega)]
    · exact Nat.div_le_of_le_mul (by nlinarith)
  simp only [roundStep, Nat.add_sub_cancel]
  generalize (d.natAbs + 2 ^ j) / 2 ^ (j + 1) = m at short
  rcases Int.lt_trichotomy d 0 with neg | zero | pos
  · rw [Int.sign_eq_neg_one_of_neg neg]
    omega
  · subst zero
    simp
  · rw [Int.sign_eq_one_of_pos pos]
    omega

/-- A positive count has a binary digit. -/
theorem bitLength_pos {n : Nat} (h : 0 < n) : 1 ≤ bitLength n :=
  List.countP_pos_iff.mpr ⟨0, List.mem_range.mpr (by omega), by simpa using Nat.succ_le_of_lt h⟩

/-- A fold into a cell that holds samples leaves its margin between the old one and the sample. -/
theorem foldMargin_between {c : Cfg} {cell : Cell} (x : Int) (kcfg : 1 ≤ c.kcfg) (held : 0 < cell.n) :
    (cell.m ≤ x → cell.m ≤ foldMargin c cell x ∧ foldMargin c cell x ≤ x) ∧
      (x ≤ cell.m → x ≤ foldMargin c cell x ∧ foldMargin c cell x ≤ cell.m) := by
  have places : 1 ≤ min c.kcfg (bitLength cell.n) := Nat.le_min.mpr ⟨kcfg, bitLength_pos held⟩
  obtain ⟨up, down⟩ := roundStep_between (x - cell.m) _ places
  rw [foldMargin, if_neg (by omega)]
  constructor
  · intro le
    have := up (by omega)
    omega
  · intro le
    have := down (by omega)
    omega

/-- A fold of a sample in range keeps a cell lawful. -/
theorem foldCell_lawful {c : Cfg} {cell : Cell} {x : Int} (t : Nat) (kcfg : 1 ≤ c.kcfg) (lawful : cell.Lawful)
    (low : -1024 ≤ x) (high : x ≤ 1008) : (foldCell c x t cell).Lawful := by
  obtain ⟨above, below, _⟩ := lawful
  have counted : (foldCell c x t cell).n ≠ 0 := by
    simp only [foldCell]
    omega
  have between : -1024 ≤ foldMargin c cell x ∧ foldMargin c cell x ≤ 1008 := by
    rcases Nat.eq_zero_or_pos cell.n with first | held
    · rw [foldMargin, if_pos first]
      exact ⟨low, high⟩
    · obtain ⟨up, down⟩ := foldMargin_between x kcfg held
      rcases Int.le_total cell.m x with le | le
      · have := up le
        omega
      · have := down le
        omega
  exact ⟨between.1, between.2, fun none => absurd none counted⟩

theorem Cell.reset_lawful : Cell.reset.Lawful := ⟨by decide, by decide, fun _ => ⟨rfl, rfl⟩⟩

theorem clampInt_between (lo hi v : Int) (h : lo ≤ hi) : lo ≤ clampInt lo hi v ∧ clampInt lo hi v ≤ hi := by
  unfold clampInt
  omega

/-- A fold and the evaluation behind it (R133, R136). -/
theorem foldSample_steady (b : Fin 64) (i : Fin 16) (margin : Int) (cause : EvalCause) (s : State) :
    Steady s (foldSample b i margin cause s) := by
  let f : Bin → Bin := fun row =>
    { row with cells := upd row.cells i (foldCell s.ccu.cfg (16 * clampInt (-64) 63 margin) s.now) }
  let g : Cvm → Cvm := fun m => { m with folded := satInc Config.max32 m.folded }
  have cells : (s.onCvm g).ShadowInRange → ((s.onCvm g).bin b).Lawful →
      ∀ j : Fin 16, ((f ((s.onCvm g).bin b)).cells[j]).Lawful := by
    intro shadow lawful j
    by_cases same : j = i
    · subst same
      have sample := clampInt_between (-64) 63 margin (by decide)
      rw [upd_self]
      exact foldCell_lawful _ shadow.kcfg.1 (lawful.1 j) (by omega) (by omega)
    · rw [upd_ne _ _ _ _ same]
      exact lawful.1 j
  exact ((steady_onCvm g fun _ => rfl).mpr (steady_refl s)).trans (steady_evalBin_onBin b cause (s.onCvm g) f cells)

section
variable {s t : State} (h : Steady s t)
include h

@[simp] theorem steady_offerSample (bin : Option Nat) (cell : Nat) (margin : Int) (cause : EvalCause) :
    Steady s (offerSample bin cell margin cause t) := by
  unfold offerSample
  split
  · exact h.trans (foldSample_steady ..)
  · simp [h]

@[simp] theorem steady_coverageStep (f : Frame) (d : Option DirResult) : Steady s (coverageStep f d t) := by
  unfold coverageStep
  simp only
  split
  · split <;> simp [h]
  · split
    · exact h.foldl (fun v j => by simp) _
    · split <;> simp [h]

@[simp] theorem steady_penaltySample (bin : Option (Fin 64)) (cell : Option (Fin 16)) :
    Steady s (penaltySample bin cell t) := by
  unfold penaltySample
  split
  · split <;> simp [h]
  · exact h

@[simp] theorem steady_ageBin (b : Fin 64) : Steady s (ageBin b t) := by
  unfold ageBin
  simp only
  split
  · refine h.trans (steady_evalBin_onBin b .aging t _ fun _ lawful i => ?_)
    simp only [Fin.getElem_fin, Vector.getElem_map]
    split
    · exact Cell.reset_lawful
    · exact lawful.1 i
  · exact h

@[simp] theorem steady_doResetBin (q : Record) : Steady s (doResetBin q t).1 := by
  unfold doResetBin
  simp only
  split
  · split
    · refine h.trans (steady_evalBin_onBin _ .reset t _ fun _ _ i => ?_)
      simpa using Cell.reset_lawful
    · exact h
  · exact h

@[simp] theorem steady_evalAll : Steady s (evalAll t) := h.foldl (fun v b => by simp) _

end

end Sys2Proof.Machine
end

section
/-! # What every step keeps: the operations of the blocks

One lemma for each operation: it is steady. The order is that of the model's files. -/

namespace Sys2Proof.Machine

section
variable {s t : State} (h : Steady s t)
include h

/-! ## The reefer monitor -/

@[simp] theorem steady_reeferEvent (g : Word) (k : EventKind) (d0 d1 d2 : Int) :
    Steady s (reeferEvent g k d0 d1 d2 t) := by simp [reeferEvent, h]

@[simp] theorem steady_writeDigest (i : Fin 2048) (n : Nat) (retired : Bool) : Steady s (writeDigest i n retired t) := by
  simp [writeDigest, h]

@[simp] theorem steady_decPending : Steady s (decPending t) := by simp [decPending, h]

@[simp] theorem steady_trigger (i : Fin 2048) : Steady s (trigger i t) := by
  unfold trigger
  split
  · simp [h]
  · split <;> simp [h]

@[simp] theorem steady_startDrain : Steady s (startDrain t) := by
  unfold startDrain
  split <;> simp [h]

@[simp] theorem steady_drainStep : Steady s (drainStep t) := by
  unfold drainStep
  simp only
  split
  · split <;> simp [h]
  · simp [h]

@[simp] theorem steady_evalCond (p : Profile) (i : Fin 2048) : Steady s (evalCond p i t) := by
  unfold evalCond
  simp only
  split
  · simp [h]
  · split <;> simp [h]

@[simp] theorem steady_heard (i : Fin 2048) (f : Frame) (j n : Nat) : Steady s (heard i f j n t) := by
  unfold heard
  simp only [steady_onReefer]
  split <;> split <;> simp [h]

@[simp] theorem steady_processEntry (i : Fin 2048) (f : Frame) (j : Nat) (home : Option (Fin 64)) (n : Nat) :
    Steady s (processEntry i f j home n t) := by
  unfold processEntry
  simp only
  refine steady_heard (steady_evalCond ?_ ..) ..
  split <;> simp [h]

@[simp] theorem steady_reeferEntry (r : Fin 16) (f : Frame) (home : Option (Fin 64)) (n j : Nat) :
    Steady s (reeferEntry r f home n j t).1 := by
  unfold reeferEntry
  simp only
  split
  · exact h
  · split
    · simp [h]
    · split <;> simp [h]

@[simp] theorem steady_retire (i : Fin 2048) (cause : Nat) : Steady s (retire i cause t) := by
  unfold retire
  simp only
  refine steady_reeferEvent ?_ ..
  rw [steady_onReefer]
  split <;> split <;> simp [h]

@[simp] theorem steady_goMissing (p : Profile) (i : Fin 2048) : Steady s (goMissing p i t) := by
  unfold goMissing
  simp only
  split <;> simp [h]

@[simp] theorem steady_visitReefer (i : Fin 2048) : Steady s (visitReefer i t) := by
  unfold visitReefer
  simp only
  split
  · exact h
  · split
    · simp [h]
    · have told := steady_evalCond (steady_goMissing h (t.profileOf i) i) (t.profileOf i) i
      split
      · exact steady_trigger told i
      · exact told

@[simp] theorem steady_doAddReefer (q : Record) : Steady s (doAddReefer q t).1 := by
  unfold doAddReefer
  simp only
  split
  · exact h
  · split
    · exact h
    · split <;> simp [h]

@[simp] theorem steady_doClearDose (q : Record) : Steady s (doClearDose q t).1 := by
  unfold doClearDose
  simp only
  split
  · exact h
  · split <;> simp [h]

@[simp] theorem steady_doRetire (q : Record) : Steady s (doRetire q t).1 := by
  unfold doRetire
  simp only
  split
  · exact h
  · split <;> simp [h]

/-! ## The report writer -/

@[simp] theorem steady_writeStatus : Steady s (writeStatus t) := by
  unfold writeStatus
  split
  · split <;> simp [h]
  · exact h

@[simp] theorem steady_completeCommand (st : Status) : Steady s (completeCommand st t) := by simp [completeCommand, h]

@[simp] theorem steady_markEvents (f : EventReq → EventReq) (n : Nat) : Steady s (markEvents f n t) := by
  simp [markEvents, h]

@[simp] theorem steady_askEvent (bytes : List Byte) : Steady s (askEvent bytes t) := by simp [askEvent, h]

@[simp] theorem steady_askLost (k : Option EventKind) : Steady s (askLost k t) := by simp [askLost, h]

@[simp] theorem steady_recordEvent (q : EventReq) : Steady s (recordEvent q t) := by
  rcases recordEvent_cases q t with ⟨_, eq⟩ | ⟨_, _, eq⟩ | ⟨_, _, eq⟩ | ⟨_, _, eq⟩ <;> simp [eq, h]

@[simp] theorem steady_recordEarly (q : EventReq) : Steady s (recordEarly q t) := by simp [recordEarly, h]

@[simp] theorem steady_takeEvent (b : Block) (q : EventReq) : Steady s (takeEvent b q t) := by
  unfold takeEvent
  simp only
  split <;> split <;> simp [h]

@[simp] theorem steady_commandProducer (v : Word) : Steady s (commandProducer v t) := by
  unfold commandProducer
  simp only
  split <;> simp [h]

@[simp] theorem steady_eventConsumer (v : Word) : Steady s (eventConsumer v t) := by
  unfold eventConsumer
  split <;> simp [h]

@[simp] theorem steady_digestAdvance : Steady s (digestAdvance t) := by
  unfold digestAdvance
  split
  · simp [h]
  · split <;> simp [h]

@[simp] theorem steady_digestConsumer (v : Word) : Steady s (digestConsumer v t) := by
  unfold digestConsumer
  simp only
  split
  · simp [h]
  · split <;> simp [h]

@[simp] theorem steady_handIndex (w : Fin 3) (v : Word) : Steady s (handIndex w v t) := by
  unfold handIndex
  split <;> simp [h]

/-! ## Held writes -/

@[simp] theorem steady_answerHeld (ok : Bool) (id : Nat) : Steady s (answerHeld ok id t) := by
  unfold answerHeld
  simp only
  split
  · simp [h]
  · split <;> simp [h]

@[simp] theorem steady_releaseSlot (r : Fin 16) (bytes : Assembly) : Steady s (releaseSlot r bytes t) := by
  unfold releaseSlot
  split <;> simp [h]

@[simp] theorem steady_releaseWithoutCommit (r : Fin 16) : Steady s (releaseWithoutCommit r t) := by
  unfold releaseWithoutCommit
  split <;> simp [h]

@[simp] theorem steady_releaseAfterCommit (r : Fin 16) : Steady s (releaseAfterCommit r t) := by
  unfold releaseAfterCommit
  simp only
  split
  · exact h
  · split
    · split <;> simp [h]
    · split <;> simp [h]

/-! ## The ring monitor -/

@[simp] theorem steady_setRingState (r : Fin 16) (st : RingState) : Steady s (setRingState r st t) := by
  unfold setRingState
  simp only
  split <;> simp [h]

@[simp] theorem steady_freeBuffer (b : Fin 64) : Steady s (freeBuffer b t) := by simp [freeBuffer, h]

@[simp] theorem steady_setMidway (r : Fin 16) (m : Option Midway) : Steady s (setMidway r m t) := by simp [setMidway, h]

@[simp] theorem steady_clearSlots (r : Fin 16) : Steady s (clearSlots r t) := by
  simp [clearSlots, freeRingTrackers, freeRingBuffers, setMidway, h]

@[simp] theorem steady_dropSlotInProgress (r : Fin 16) : Steady s (dropSlotInProgress r t) := by
  simp [dropSlotInProgress, h]

@[simp] theorem steady_giveUpSlot (r : Fin 16) : Steady s (giveUpSlot r t) := by simp [giveUpSlot, h]

@[simp] theorem steady_evalMarks (r : Fin 16) : Steady s (evalMarks r t) := by
  rcases evalMarks_cases r t with ⟨_, _, eq⟩ | ⟨_, _, eq⟩ | ⟨_, _, eq⟩ <;> simp [eq, h]

@[simp] theorem steady_consumerValue (r x : Fin 16) (v : Word) : Steady s (consumerValue r x v t) := by
  unfold consumerValue
  simp only
  split
  · simp [h]
  · split <;> simp [h]
  · split <;> simp [h]
  · simp [h]
  · simp [h]

@[simp] theorem steady_resync (r : Fin 16) (v : Word) (held : Bool) : Steady s (resync r v held t) := by
  unfold resync
  have dropped := steady_dropSlotInProgress (steady_clearSlots h r) r
  simp only
  split <;> simp [dropped]

@[simp] theorem steady_checkComplete (r : Fin 16) : Steady s (checkComplete r t) := by
  unfold checkComplete
  simp only
  split
  · exact h
  · split
    · split <;> simp [h]
    · exact h

@[simp] theorem steady_extendCommit (r : Fin 16) (v : Word) (held : Bool) (c : Commit) :
    Steady s (extendCommit r v held c t) := by
  unfold extendCommit
  simp only
  split
  · simp [h]
  · split <;> simp [h]

@[simp] theorem steady_beginCommit (r : Fin 16) (v : Word) (held : Bool) : Steady s (beginCommit r v held t) := by
  unfold beginCommit
  simp only
  split
  · split <;> simp [h]
  · split <;> simp [h]

@[simp] theorem steady_handProducer (r x : Fin 16) (v : Word) (held : Bool) : Steady s (handProducer r x v held t) := by
  unfold handProducer
  simp only
  split
  · split
    · split
      · simp [h]
      · split <;> simp [h]
    · split
      · simp [h]
      · split <;> simp [h]
  · simp [h]

@[simp] theorem steady_enterEnabling (r : Fin 16) : Steady s (enterEnabling r t) := by
  have cleared := steady_clearSlots (steady_dropSlotInProgress h r) r
  simp [enterEnabling, cleared]

@[simp] theorem steady_closeWindows (r : Fin 16) : Steady s (closeWindows r t) := by simp [closeWindows, h]

@[simp] theorem steady_testRing (r : Fin 16) : Steady s (testRing r t) := by
  unfold testRing
  split
  · simp [h]
  · split <;> simp [h]

@[simp] theorem steady_retestRing (r : Fin 16) : Steady s (retestRing r t) := by
  unfold retestRing
  simp only
  split
  · split <;> simp [h]
  · exact h

@[simp] theorem steady_admitRing (r : Fin 16) : Steady s (admitRing r t) := by
  unfold admitRing
  simp only
  split
  · split <;> simp [h]
  · split <;> simp [h]
  · simp [h]
  · simp [h]
  · exact h

@[simp] theorem steady_admitRings : Steady s (admitRings t) := h.foldl (fun v r => by simp) _

@[simp] theorem steady_enableOff (r : Fin 16) : Steady s (enableOff r t) := by
  unfold enableOff
  split <;> simp [h]

@[simp] theorem steady_handKept (r : Fin 16) : Steady s (handKept r t) := by
  unfold handKept
  simp only
  split
  · split <;> simp [h]
  · split <;> simp [h]

@[simp] theorem steady_takeBaseline (r : Fin 16) (p c : Word) : Steady s (takeBaseline r p c t) := by
  unfold takeBaseline
  simp only
  split <;> simp [h]

@[simp] theorem steady_baselineAnswer (r : Fin 16) (gen : Nat) (consumer : Bool) (data : BitVec 128) :
    Steady s (baselineAnswer r gen consumer data t) := by
  unfold baselineAnswer
  simp only
  split
  · split <;> simp [h]
  · exact h

@[simp] theorem steady_finishDisabling (r : Fin 16) : Steady s (finishDisabling r t) := by
  unfold finishDisabling
  have cleared := steady_releaseWithoutCommit (steady_clearSlots h r) r
  simp only
  split <;> simp [cleared]

@[simp] theorem steady_freeSlotBuffer (r : Fin 16) (sl : Nat) : Steady s (freeSlotBuffer r sl t) := by
  unfold freeSlotBuffer
  split
  · split <;> simp [h]
  · exact h

@[simp] theorem steady_startCapture (r : Fin 16) (sl : Nat) (i : Word) (w : List (Nat × Byte)) :
    Steady s (startCapture r sl i w t) := by
  unfold startCapture
  simp only
  split
  · simp [h]
  · split
    · simp [h]
    · split <;> simp [h]

@[simp] theorem steady_captureAt (r : Fin 16) (sl : Nat) (i : Word) (w : List (Nat × Byte)) :
    Steady s (captureAt r sl i w t) := by
  unfold captureAt
  split
  · split <;> simp [h]
  · split <;> simp [h]
  · simp [h]

@[simp] theorem steady_slotWrite (r x : Fin 16) (sl : Nat) (w : List (Nat × Byte)) : Steady s (slotWrite r x sl w t) := by
  unfold slotWrite
  simp only
  split
  · split <;> simp [h]
  · split <;> simp [h]

@[simp] theorem steady_captureWrite (r x : Fin 16) (w : List (Nat × Byte)) : Steady s (captureWrite r x w t) := by
  refine h.foldl (fun v sl => ?_) _
  simp only
  split
  · simp
  · split <;> simp

/-! ## Commits -/

@[simp] theorem steady_bufferFate (c : CommitPoint) : Steady s (bufferFate c t) := by
  unfold bufferFate
  split
  · exact h
  · split
    · split <;> simp [h]
    · exact h

@[simp] theorem steady_finishSlot (c : CommitPoint) : Steady s (finishSlot c t) := by
  unfold finishSlot
  have freed := steady_freeSlotBuffer (steady_bufferFate h c) c.ring c.slot
  simp only
  split <;> simp [freed]

@[simp] theorem steady_commitSlotFrom4 (r : Fin 16) (b : Option (Fin 64)) (v : Verdict × Reason) :
    Steady s (commitSlotFrom4 r b v t) := by
  unfold commitSlotFrom4
  simp only
  split <;> simp [h]

@[simp] theorem steady_commitSlot (r : Fin 16) : Steady s (commitSlot r t) := by
  unfold commitSlot
  simp only
  split
  · split <;> simp [h]
  · simp [h]

end

@[simp] theorem steady_resumePaused {s t : State} (h : Steady s t) (l : List (Fin 16)) : Steady s (resumePaused l t) := by
  induction l generalizing t with
  | nil => simp [resumePaused, h]
  | cons r rest ih =>
    unfold resumePaused
    simp only
    split
    · simp [h]
    · exact ih (by simp [h])

section
variable {s t : State} (h : Steady s t)
include h

/-! ## The crane supervisor -/

@[simp] theorem steady_craneEvent (k : Fin 32) (kind : EventKind) (d1 d2 : Int) : Steady s (craneEvent k kind d1 d2 t) := by
  simp [craneEvent, h]

@[simp] theorem steady_jitterEffect (k : Fin 32) (a : Nat) (v : Word) : Steady s (jitterEffect k a v t) := by
  unfold jitterEffect
  simp only [steady_onCrane]
  split
  · split <;> simp [h]
  · exact h

@[simp] theorem steady_stateEffect (k : Fin 32) (gap : Bool) : Steady s (stateEffect k gap t) := by
  unfold stateEffect
  simp only
  split
  · split
    · simp [h]
    · split <;> simp [h]
  · simp [h]
  · simp [h]
  · split
    · simp [h]
    · split <;> simp [h]
  · exact h

@[simp] theorem steady_estopEffect (k : Fin 32) (f : Frame) : Steady s (estopEffect k f t) := by
  unfold estopEffect
  simp only
  split <;> simp [h]

@[simp] theorem steady_acceptFrame (k : Fin 32) (f : Frame) (bin : Option (Fin 64)) (a n : Nat) (gap : Bool) :
    Steady s (acceptFrame k f bin a n gap t) := by
  unfold acceptFrame
  exact steady_estopEffect (steady_stateEffect (steady_jitterEffect (by simp [h]) ..) ..) ..

@[simp] theorem steady_supervise (k : Fin 32) (f : Frame) (bin : Option (Fin 64)) (a n : Nat) :
    Steady s (supervise k f bin a n t) := by
  unfold supervise
  simp only
  split
  · simp [h]
  · split
    · simp [h]
    · split
      · simp [h]
      · split <;> simp [h]

@[simp] theorem steady_craneStep (r : Fin 16) (f : Frame) (a n : Nat) (left : Bool) (d : Option DirResult) :
    Steady s (craneStep r f a n left d t) := by
  unfold craneStep
  split
  · exact h
  · split
    · split
      · exact h
      · unfold unboundFrame
        simp only
        split <;> simp [h]
    · simp only
      split <;> simp [h]

@[simp] theorem steady_enterHold (k : Fin 32) (cause : HoldCause) : Steady s (enterHold k cause t) := by
  simp [enterHold, h]

@[simp] theorem steady_expiryEffect (k : Fin 32) : Steady s (expiryEffect k t) := by
  unfold expiryEffect
  simp only
  split
  · exact h
  · simp [h]
  · simp [h]
  · split <;> simp [h]
  · simp [h]

@[simp] theorem steady_expire (k : Fin 32) : Steady s (expire k t) := by
  unfold expire
  simp only
  split <;> simp [h]

@[simp] theorem steady_doBind (q : Record) : Steady s (doBind q t).1 := by
  unfold doBind
  split
  · exact h
  · split
    · exact h
    · split
      · exact h
      · split
        · exact h
        · split
          · exact h
          · simp [bindContext, h]

@[simp] theorem steady_doUnbind (q : Record) : Steady s (doUnbind q t).1 := by
  unfold doUnbind
  split
  · exact h
  · split
    · exact h
    · simp [unbindContext, nameContext, h]

@[simp] theorem steady_doForceHold (q : Record) : Steady s (doForceHold q t).1 := by
  unfold doForceHold
  split
  · exact h
  · split <;> simp [h]

@[simp] theorem steady_doReleaseHold (q : Record) : Steady s (doReleaseHold q t).1 := by
  unfold doReleaseHold
  split
  · exact h
  · split
    · exact h
    · split <;> simp [releaseContext, h]

@[simp] theorem steady_fileCommand (tid : BitVec 16) (p : PendingCmd) : Steady s (fileCommand tid p t) := by
  unfold fileCommand
  split
  · exact h
  · split
    · exact h
    · split <;> simp [h]

/-! ## Downlink rewriting -/

@[simp] theorem steady_freeTracker (k : Fin 8) : Steady s (freeTracker k t) := by simp [freeTracker, h]

@[simp] theorem steady_dropRecord (r : Fin 16) (sl : Nat) : Steady s (dropRecord r sl t) := by
  unfold dropRecord
  simp only
  split <;> simp [h]

@[simp] theorem steady_setRecord (r : Fin 16) (sl : Nat) (e : SlotEntry) : Steady s (setRecord r sl e t) := by
  simp [setRecord, h]

@[simp] theorem steady_dropStale (r : Fin 16) (sl : Nat) (i : Word) : Steady s (dropStale r sl i t) := by
  unfold dropStale
  split
  · split <;> simp [h]
  · exact h

@[simp] theorem steady_beat0 (r : Fin 16) (sl : Nat) (i : Word) (b : Beat) : Steady s (beat0 r sl i b t) := by
  unfold beat0
  simp only
  split
  · simp [h]
  · split <;> simp [openTracker, h]

@[simp] theorem steady_beat1 (r : Fin 16) (sl : Nat) (i : Word) (b : Beat) : Steady s (beat1 r sl i b t).1 := by
  unfold beat1
  split <;> simp [h]

@[simp] theorem steady_spoilBeat (r : Fin 16) (sl : Nat) (i : Word) (first : Bool) (cause : SkipCause) :
    Steady s (spoilBeat r sl i first cause t) := by
  unfold spoilBeat
  split
  · simp [h]
  · split <;> simp [h]
  · exact h
  · simp [h]

@[simp] theorem steady_downlinkBeat (r x : Fin 16) (sl off : Nat) (b : Beat) :
    Steady s (downlinkBeat r x sl off b t).1 := by
  unfold downlinkBeat
  simp only
  split
  · exact h
  · split
    · simp [h]
    · split
      · simp [h]
      · split <;> simp [h]

end

@[simp] theorem steady_rewriteBeats {s t : State} (h : Steady s t) (x : Fin 16) (a : Nat) (beats : List Beat) :
    Steady s (rewriteBeats x a beats t).1 := by
  induction beats generalizing a t with
  | nil => exact h
  | cons b rest ih =>
    unfold rewriteBeats
    simp only
    split <;> exact ih (by simp [h]) _

section
variable {s t : State} (h : Steady s t)
include h

@[simp] theorem steady_onRecord (r : Fin 16) (step : Word → SlotEntry → State → State)
    (each : ∀ i e, Steady s (step i e t)) : Steady s (onRecord r step t) := by
  unfold onRecord
  simp only
  split
  · exact each ..
  · exact h

@[simp] theorem steady_reportSkip (r : Fin 16) (i : Word) (e : SlotEntry) : Steady s (reportSkip r i e t) := by
  unfold reportSkip
  split <;> simp [h]

@[simp] theorem steady_lengthAndCommand (r : Fin 16) (i : Word) (e : SlotEntry) (n : Nat) :
    Steady s (lengthAndCommand r i e n t) := by
  unfold lengthAndCommand
  split
  · exact h
  · split <;> simp [h]

@[simp] theorem steady_releaseRecord (r : Fin 16) : Steady s (releaseRecord r t) := by
  simp only [releaseRecord]
  exact steady_checkComplete (steady_evalMarks (by simp [h]) r) r

@[simp] theorem steady_measureSlot (r : Fin 16) (n : Nat) (told : Bool) : Steady s (measureSlot r n told t) := by
  have measured : Steady s (onRecord r (fun i e s => lengthAndCommand r i e n s) t) :=
    steady_onRecord h r _ fun i e => steady_lengthAndCommand h r i e n
  rcases measureSlot_cases r n told t with ⟨_, eq⟩ | ⟨_, eq⟩ <;> simp [eq, measured]

@[simp] theorem steady_beginSlot (r : Fin 16) (told : Bool) : Steady s (beginSlot r told t) := by
  have fresh : ∀ sl i, Steady s (skipStep r told (dropStale r sl i t)) := by
    intro sl i
    unfold skipStep
    split
    · simp [h]
    · exact steady_onRecord (by simp [h]) r _ fun i e => steady_reportSkip (by simp [h]) r i e
  unfold beginSlot
  simp only
  split <;> simp [fresh]

@[simp] theorem steady_commitDownlink (r : Fin 16) : Steady s (commitDownlink r t) := by
  rcases commitDownlink_cases r t with ⟨_, eq⟩ | ⟨m, _, ⟨_, eq⟩ | ⟨_, _, eq⟩ | ⟨_, _, eq⟩⟩ <;> simp [eq, h]

/-! ## The sweep -/

@[simp] theorem steady_latchSelect : Steady s (latchSelect t) := by simp [latchSelect, h]

@[simp] theorem steady_selectChanged : Steady s (selectChanged t) := by
  unfold selectChanged
  split <;> simp [h]

@[simp] theorem steady_beginSweep : Steady s (beginSweep t) := by simp [beginSweep, h]

@[simp] theorem steady_sweepTrigger (src : TrigSel) : Steady s (sweepTrigger src t) := by
  rcases sweepTrigger_cases src t with ⟨_, eq⟩ | ⟨_, _, eq⟩ | ⟨_, _, eq⟩ | ⟨_, eq⟩ <;> simp [eq, overrun, h]

@[simp] theorem steady_endSweep : Steady s (endSweep t) := by
  have latched : Steady s (latchSelect (t.onTbs fun t => { t with completed := t.completed + 1, sweeping := false })) := by
    simp [h]
  unfold endSweep
  simp only
  split
  · exact steady_beginSweep latched
  · exact latched

@[simp] theorem steady_resumeSweep : Steady s (resumeSweep t) := by
  unfold resumeSweep
  split <;> simp [h]

@[simp] theorem steady_advanceSweep : Steady s (advanceSweep t) := by
  obtain ⟨p, n, eq⟩ := advanceSweep_frame t
  rw [eq]
  exact (steady_agree (t := t) (by rfl) (by rfl) (by rfl) (by rfl) (by rfl)).mpr h

/-! ## The part states -/

@[simp] theorem steady_beginSnapshot : Steady s (beginSnapshot t) := by simp [beginSnapshot, h]

@[simp] theorem steady_endSnapshot (o : SnapOutcome) : Steady s (endSnapshot o t) := by simp [endSnapshot, dropRows, h]

@[simp] theorem steady_closeSnapshot : Steady s (closeSnapshot t) := by
  rcases closeSnapshot_cases t with ⟨_, eq⟩ | ⟨_, eq⟩ <;> simp [eq, h]

@[simp] theorem steady_abortSnapshot : Steady s (abortSnapshot t) := by
  unfold abortSnapshot
  split <;> simp [h]

@[simp] theorem steady_changePart (new : PartState) (cause : ChangeCause) : Steady s (changePart new cause t) := by
  simp [changePart, askPartRecord, h]

@[simp] theorem steady_enterInitialising : Steady s (enterInitialising t) := by simp [enterInitialising, h]

@[simp] theorem steady_resumeDrain : Steady s (resumeDrain t) := by
  unfold resumeDrain
  split <;> simp [h]

@[simp] theorem steady_enterRunning (cause : ChangeCause) : Steady s (enterRunning cause t) := by
  have admitted := steady_admitRings (steady_changePart h .running cause)
  simp [enterRunning, admitted]

@[simp] theorem steady_suspendSlot (r : Fin 16) : Steady s (suspendSlot r t) := by
  unfold suspendSlot
  split <;> simp [h]

@[simp] theorem steady_enterSuspending : Steady s (enterSuspending t) :=
  steady_abortSnapshot ((steady_changePart h .suspending .runOff).foldl (fun v r => by simp) _)

@[simp] theorem steady_enterSuspended : Steady s (enterSuspended t) := by
  have stopped : Steady s
      ((List.finRange 16).foldl (fun s r => suspendRing r s) (changePart .suspended .drained t)) :=
    (steady_changePart h .suspended .drained).foldl (fun v r => by simp [suspendRing]) _
  unfold enterSuspended
  simp only
  split <;> simp [stopped]

@[simp] theorem steady_runChanged : Steady s (runChanged t) := by
  unfold runChanged
  split <;> simp [h]

end

/-- A cleared grid is lawful. -/
theorem lawful_of_reset {s : State} (h : s.cvm.bins = Cvm.reset.bins) : s.GridLawful := by
  intro b
  have row : s.bin b = Bin.reset := by simp [State.bin, h, Cvm.reset]
  rw [row]
  refine ⟨fun i => ?_, fun i chosen => nomatch chosen⟩
  simpa [Bin.reset] using Cell.reset_lawful

@[simp] theorem steady_jobRestart {s t : State} (h : Steady s t) : Steady s (jobRestart t) := by
  refine h.trans ?_
  simp only [jobRestart, askPartRecord, steady_ask]
  exact ⟨rfl, rfl, rfl, id, fun _ _ => lawful_of_reset rfl⟩

end Sys2Proof.Machine
end

section
/-! # What every step keeps: the shadow, the links and the injection queue

The fields of the configuration block keep the shadow in its ranges (R105, R167, R168). A request that joins is one entry; from
this the bound of the injection queue follows through `settle` (R16). -/

namespace Sys2Proof.Machine

/-! ## The ranges of the shadow (R105, R167, R168) -/

theorem clampNat_between (lo hi v : Nat) (h : lo ≤ hi) : lo ≤ clampNat lo hi v ∧ clampNat lo hi v ≤ hi := by
  unfold clampNat
  omega

/-- A written value of field `f`, clamped and applied, keeps a shadow in its ranges. -/
def Field.KeepsRange (f : Field) : Prop := ∀ (c : Cfg) (v : Nat), c.InRange → (f.put (f.clamp c v) c).InRange

/-- An on/off field takes any value. -/
theorem onOff_keepsRange {get : Cfg → Bool} {put : Bool → Cfg → Cfg}
    (keeps : ∀ (c : Cfg) (b : Bool), c.InRange → (put b c).InRange) : (onOff get put).KeepsRange :=
  fun c _ range => keeps c _ range

/-- A numeric field takes any value within its bounds. -/
theorem numeric_keepsRange {w lo hi : Nat} {get : Cfg → Nat} {put : Nat → Cfg → Cfg} (bounds : lo ≤ hi)
    (keeps : ∀ (c : Cfg) (n : Nat), lo ≤ n → n ≤ hi → c.InRange → (put n c).InRange) :
    (numeric w lo hi get put).KeepsRange := by
  intro c v range
  obtain ⟨low, high⟩ := clampNat_between lo hi v bounds
  exact keeps c _ low high range

/-- A signed byte field takes any value from −64 to the bound that the shadow gives. -/
theorem signedByte_keepsRange {top get : Cfg → Int} {put : Int → Cfg → Cfg} (bounds : ∀ c : Cfg, c.InRange → -64 ≤ top c)
    (keeps : ∀ (c : Cfg) (x : Int), -64 ≤ x → x ≤ top c → c.InRange → (put x c).InRange) :
    (signedByte top get put).KeepsRange := by
  intro c v range
  obtain ⟨low, high⟩ := clampInt_between (-64) (top c) (signed 8 v) (bounds c range)
  exact keeps c _ low high range

/-- The fields below 0x100 keep the shadow in its ranges (R168). -/
theorem globalField_keepsRange {off : Nat} {f : Field} (h : globalField off = some f) : f.KeepsRange := by
  unfold globalField at h
  split at h <;> cases h
  · exact onOff_keepsRange fun c b range => { range with }
  · exact numeric_keepsRange (by decide) fun c n _ high range => { range with restartGen := high }
  · exact onOff_keepsRange fun c b range => { range with }
  · exact onOff_keepsRange fun c b range => { range with }
  · exact onOff_keepsRange fun c b range => { range with }
  · intro c v range
    have bits : v % 32 ≤ 31 := by omega
    exact { range with kindMask := bits }
  · exact numeric_keepsRange (by decide) fun c n _ high range => { range with domain := high }
  · exact onOff_keepsRange fun c b range => { range with }
  · exact numeric_keepsRange (by decide) fun c n _ high range => { range with version := high }
  · exact numeric_keepsRange (by decide) fun c n low high range => { range with passShare := ⟨low, high⟩ }
  · exact onOff_keepsRange fun c b range => { range with }
  · exact onOff_keepsRange fun c b range => { range with }
  · exact fun c v range => { range with }
  · exact numeric_keepsRange (by decide) fun c n low high range => { range with sweepPeriod := ⟨low, high⟩ }
  · exact numeric_keepsRange (by decide) fun c n _ high range => { range with range := ⟨high, range.range.2⟩ }
  · exact numeric_keepsRange (by decide) fun c n _ high range => { range with range := ⟨range.range.1, high⟩ }
  · exact numeric_keepsRange (by decide) fun c n low high range => { range with learnAge := ⟨low, high⟩ }
  · exact numeric_keepsRange (by decide) fun c n _ high range => { range with defaultProfile := high }
  · exact numeric_keepsRange (by decide) fun c n _ high range => { range with digestPeriod := high }
  · exact numeric_keepsRange (by decide) fun c n _ high range => { range with retireAge := high }
  · exact numeric_keepsRange (by decide) fun c n low high range => { range with jitterLimit := ⟨low, high⟩ }
  · exact numeric_keepsRange (by decide) fun c n _ high range => { range with origin := high }
  · exact numeric_keepsRange (by decide) fun c n low high range => { range with binWidth := ⟨low, high⟩ }
  · exact numeric_keepsRange (by decide) fun c n low high range => { range with binCount := ⟨low, high⟩ }
  · exact numeric_keepsRange (by decide) fun c n low high range => { range with cellCount := ⟨low, high⟩ }
  · exact numeric_keepsRange (by decide) fun c n low high range => { range with kcfg := ⟨low, high⟩ }
  · exact numeric_keepsRange (by decide) fun c n low high range => { range with minSamples := ⟨low, high⟩ }
  · refine signedByte_keepsRange (fun _ _ => by decide) fun c x low high range => ?_
    have weak : -64 ≤ min c.weakDb x ∧ min c.weakDb x ≤ x := ⟨le_min range.weakDb.1 low, min_le_right ..⟩
    exact { range with goodDb := ⟨low, high⟩, weakDb := weak }
  · exact signedByte_keepsRange (fun _ range => range.goodDb.1) fun c x low high range =>
      { range with weakDb := ⟨low, high⟩ }
  · exact numeric_keepsRange (by decide) fun c n _ high range => { range with switchHyst := high }
  · exact numeric_keepsRange (by decide) fun c n _ high range => { range with loadLimit := high }
  · exact numeric_keepsRange (by decide) fun c n low high range => { range with ageLimit := ⟨low, high⟩ }
  · exact signedByte_keepsRange (fun _ _ => by decide) fun c x low high range =>
      { range with penaltyMargin := ⟨low, high⟩ }

/-- A profile in range in place of another keeps the shadow in its ranges. -/
theorem inRange_upd_profile {c : Cfg} {p : Fin 8} {f : Profile → Profile} (range : c.InRange)
    (profile : (f c.profiles[p]).InRange) : ({ c with profiles := upd c.profiles p f } : Cfg).InRange := by
  refine { range with profiles := fun q => ?_ }
  change ((upd c.profiles p f)[q]).InRange
  by_cases same : q = p
  · rw [same, upd_self]
    exact profile
  · rw [upd_ne _ _ _ _ same]
    exact range.profiles q

/-- A numeric field of a profile takes any value within its bounds. -/
theorem profileNumeric_keepsRange {p : Fin 8} {w lo : Nat} {hi get : Profile → Nat} {put : Nat → Profile → Profile}
    (bounds : ∀ q, lo ≤ hi q) (keeps : ∀ (q : Profile) (n : Nat), lo ≤ n → n ≤ hi q → q.InRange → (put n q).InRange) :
    (profileNumeric p w lo hi get put).KeepsRange := by
  intro c v range
  obtain ⟨low, high⟩ := clampNat_between lo (hi c.profiles[p]) v (bounds _)
  exact inRange_upd_profile range (keeps _ _ low high (range.profiles p))

/-- The fields of a profile keep it in its ranges (R105). -/
theorem profileField_keepsRange {p : Fin 8} {o : Nat} {f : Field} (h : profileField p o = some f) : f.KeepsRange := by
  unfold profileField at h
  split at h <;> cases h
  · exact profileNumeric_keepsRange (fun _ => by decide) fun q n _ high range => { range with tolHi := high }
  · exact profileNumeric_keepsRange (fun _ => by decide) fun q n _ high range => { range with tolLo := high }
  · exact profileNumeric_keepsRange (fun _ => Nat.zero_le _) fun q n _ high range =>
      { range with warnDose := high.trans range.breachDose }
  · exact profileNumeric_keepsRange (fun _ => by decide) fun q n _ high range => { range with breachDose := high }
  · exact profileNumeric_keepsRange (fun _ => by decide) fun q n low high range => { range with interval := ⟨low, high⟩ }
  · exact profileNumeric_keepsRange (fun _ => by decide) fun q n low high range => { range with missFactor := ⟨low, high⟩ }
  · exact profileNumeric_keepsRange (fun _ => by decide) fun q n low high range => { range with holdCap := ⟨low, high⟩ }

/-- Every field of the configuration block keeps the shadow in its ranges. -/
theorem configField_keepsRange {off : Nat} {f : Field} (h : configField off = some f) : f.KeepsRange := by
  unfold configField at h
  split at h
  · exact globalField_keepsRange h
  · split at h
    · exact profileField_keepsRange h
    · cases h

/-! ## Control capture -/

section
variable {s t : State} (h : Steady s t)
include h

@[simp] theorem steady_configLocked (off : Nat) (written kept : Int) (cause : LockCause) :
    Steady s (configLocked off written kept cause t) := by simp [configLocked, h]

@[simp] theorem steady_afterChange (off : Nat) : Steady s (afterChange off t) := by
  unfold afterChange
  split
  · simp [h]
  · split
    · simp [h]
    · split
      · split <;> simp [h]
      · split <;> simp [h]

theorem steady_applyField (off : Nat) {f : Field} (keeps : f.KeepsRange) (v : Nat) : Steady s (applyField off f v t) := by
  have applied : Steady s (t.onCcu fun c => { c with cfg := f.put (f.clamp t.ccu.cfg v) c.cfg }) :=
    h.trans ⟨rfl, rfl, rfl, keeps _ _, fun _ => id⟩
  unfold applyField
  simp only
  split
  · exact h
  · split
    · exact steady_configLocked h ..
    · exact steady_afterChange applied off

@[simp] theorem steady_applyRing (r : Fin 16) (o v : Nat) : Steady s (applyRing r o v t) := by
  unfold applyRing
  simp only
  split
  · exact h
  · split
    · simp [h]
    · split <;> simp [h]

@[simp] theorem steady_applyConfig (off v : Nat) : Steady s (applyConfig off v t) := by
  unfold applyConfig
  split
  · simp [h]
  · split
    · next f field => exact steady_applyField h off (configField_keepsRange field) v
    · exact h

@[simp] theorem steady_assembleHost (start width : Nat) (w : List (Nat × Byte)) :
    Steady s (assembleHost start width w t).1 := by simp [assembleHost, h]

@[simp] theorem steady_captureConfig (w : List (Nat × Byte)) : Steady s (captureConfig w t) := by
  refine h.foldl (fun v off => ?_) _
  simp only
  split <;> simp

@[simp] theorem steady_putRecord (n : Fin 256) (o : Nat) (bs : List Byte) : Steady s (putRecord n o bs t) := by
  simp [putRecord, h]

@[simp] theorem steady_captureArgument (n : Fin 256) (w : List (Nat × Byte)) (o : Nat) :
    Steady s (captureArgument n w t o) := by
  unfold captureArgument
  simp only
  split <;> simp [h]

@[simp] theorem steady_captureRecord (w : List (Nat × Byte)) (n : Fin 256) : Steady s (captureRecord w t n) := by
  unfold captureRecord
  simp only
  refine Steady.foldl ?_ (fun v o => by simp) _
  split <;> simp [h]

@[simp] theorem steady_captureCommands (w : List (Nat × Byte)) : Steady s (captureCommands w t) :=
  h.foldl (fun v n => by simp) _

@[simp] theorem steady_indexValue (k : Fin 3) (v : Word) : Steady s (indexValue k v t) := by
  unfold indexValue
  split <;> simp [h]

@[simp] theorem steady_captureIndices (w : List (Nat × Byte)) : Steady s (captureIndices w t) := by
  refine h.foldl (fun v k => ?_) _
  simp only
  split
  · simp
  · split <;> simp

@[simp] theorem steady_captureHost (x : Fin 16) (w : List (Nat × Byte)) : Steady s (captureHost x w t) := by
  unfold captureHost
  simp only
  split
  · exact h
  · exact steady_captureIndices (steady_captureCommands (steady_captureConfig (by simp [h]) _) _) _

/-! ## The links -/

@[simp] theorem steady_consumerBytes (r x : Fin 16) (w : List (Nat × Byte)) : Steady s (consumerBytes r x w t) := by
  unfold consumerBytes
  simp only
  split
  · exact h
  · split <;> simp [h]

@[simp] theorem steady_passProducer (r x : Fin 16) (w : List (Nat × Byte)) : Steady s (passProducer r x w t) := by
  unfold passProducer
  simp only
  split
  · exact h
  · split <;> simp [h]

@[simp] theorem steady_slotComplete (r x : Fin 16) (v : Word) : Steady s (slotComplete r x v t) := by
  unfold slotComplete
  simp only
  split
  · simp [h]
  · simp [h]
  · split <;> simp [h]

@[simp] theorem steady_holdProducers (x : Fin 16) (id : Nat) (rings : List (Fin 16)) (w : List (Nat × Byte)) :
    Steady s (holdProducers x id rings w t) :=
  (h.foldl (fun v r => by simp [enrol]) _).foldl (fun v a => by simp) _

@[simp] theorem steady_forwardWrite (x : Fin 16) (addr : Word) (beats : List Beat) (held : List (Nat × Nat)) (id : Nat) :
    Steady s (forwardWrite x addr beats held id t) := by
  unfold forwardWrite
  simp only
  split
  · simp [h]
  · split <;> simp [h]

@[simp] theorem steady_ringTreatments (x : Fin 16) (w : List (Nat × Byte)) (holders : List (Fin 16)) (id : Nat) :
    Steady s (ringTreatments x w holders id t) := by
  refine steady_holdProducers (((h.foldl (fun v r => ?_) _).foldl (fun v r => ?_) _).foldl (fun v r => ?_) _) ..
  · split <;> simp
  · simp
  · split <;> simp

@[simp] theorem steady_acceptWrite (x : Fin 16) (addr : Word) (beats : List Beat) :
    Steady s (acceptWrite x addr beats t) :=
  steady_captureHost (steady_ringTreatments (steady_forwardWrite (steady_rewriteBeats h ..) ..) ..) ..

@[simp] theorem steady_ulinkWrite (x : Fin 16) (addr : Word) (beats : List Beat) :
    Steady s (ulinkWrite x addr beats t) := by
  unfold ulinkWrite
  simp only
  split
  · simp [refuseWrite, h]
  · split <;> simp [h]

@[simp] theorem steady_forwardAnswer (q : FwdTxn) (ok : Bool) (data : List (BitVec 128)) :
    Steady s (forwardAnswer q ok data t) := by
  unfold forwardAnswer
  split
  · simp [h]
  · exact h.foldl (fun v id => by simp) _

@[simp] theorem steady_forwardResponse (i : Nat) (ok : Bool) (data : List (BitVec 128)) :
    Steady s (forwardResponse i ok data t) := by
  unfold forwardResponse
  split
  · exact h
  · split <;> simp [h]

@[simp] theorem steady_memoryError (ok : Bool) (e : InjEntry) : Steady s (memoryError ok e t) := by
  unfold memoryError
  split <;> simp [h]

@[simp] theorem steady_writeAnswered (tag : InjTag) : Steady s (writeAnswered tag t) := by
  unfold writeAnswered
  split
  · unfold receiptAnswered
    split <;> simp [h]
  · simp [h]
  · simp [h]
  · exact h
  · exact h
  · exact h

@[simp] theorem steady_injectedWriteAnswer (i : Nat) (ok : Bool) : Steady s (injectedWriteAnswer i ok t) := by
  unfold injectedWriteAnswer
  split
  · exact h
  · split
    · exact h
    · exact steady_writeAnswered (steady_memoryError (by simp [h]) ..) _

@[simp] theorem steady_readAnswered (tag : InjTag) (data : BitVec 128) : Steady s (readAnswered tag data t) := by
  unfold readAnswered
  split <;> simp [h]

@[simp] theorem steady_injectedReadAnswer (i : Nat) (ok : Bool) (data : BitVec 128) :
    Steady s (injectedReadAnswer i ok data t) := by
  unfold injectedReadAnswer
  split
  · exact h
  · split
    · exact steady_readAnswered (steady_memoryError (by simp [h]) ..) ..
    · exact h

/-! ## Area initialisation and the refresh -/

@[simp] theorem steady_handKeptIndices : Steady s (handKeptIndices t) := by
  refine Steady.foldl (by simp [h]) (fun v k => ?_) _
  split <;> simp

@[simp] theorem steady_finishInit : Steady s (finishInit t) := by
  unfold finishInit
  split <;> simp [h]

@[simp] theorem steady_refreshDone : Steady s (refreshDone t) := by
  unfold refreshDone
  simp only
  split <;> simp [h]

@[simp] theorem steady_rowCopied (b : Fin 64) : Steady s (rowCopied b t) := by
  unfold rowCopied
  simp only
  split <;> simp [h]

theorem steady_askEarly (l : List (List Byte)) : Steady s (askEarly l t) := by
  induction l generalizing t with
  | nil => simp [askEarly, h]
  | cons b l ih =>
    cases l with
    | nil => simp [askEarly, h]
    | cons c l => exact ih (by simp [h])

@[simp] theorem steady_initialise : Steady s (initialise t) := by
  unfold initialise
  split
  · exact steady_askEarly (by simp [h]) _
  · exact h

end

/-! ## Joining: a request is one entry (R16) -/

/-- The run clock of `s` is that of `t`, the site-time offset too unless `moved`, and the laws of the shadow and of the grid
pass to `t`. -/
structure Lawful (moved : Prop) (s t : State) : Prop where
  clock : t.tbs.runClock = s.tbs.runClock
  offset : ¬moved → t.tbs.offset = s.tbs.offset
  shadow : s.ShadowInRange → t.ShadowInRange
  grid : s.ShadowInRange → s.GridLawful → t.GridLawful

/-- The bound of the injection queue passes to `t` as well. -/
structure Orderly (moved : Prop) (s t : State) : Prop extends Lawful moved s t where
  bound : s.lif.injQueue.length ≤ Config.injectionDepth → t.lif.injQueue.length ≤ Config.injectionDepth

theorem Steady.lawful {moved : Prop} {s t : State} (h : Steady s t) : Lawful moved s t :=
  ⟨h.clock, fun _ => h.offset, h.shadow, h.grid⟩

theorem Steady.orderly {moved : Prop} {s t : State} (h : Steady s t) : Orderly moved s t :=
  ⟨h.lawful, fun bound => h.queue ▸ bound⟩

theorem Lawful.trans {moved : Prop} {s t u : State} (h : Lawful moved s t) (k : Lawful moved t u) : Lawful moved s u :=
  ⟨k.clock.trans h.clock, fun still => (k.offset still).trans (h.offset still), k.shadow ∘ h.shadow,
    fun shadow grid => k.grid (h.shadow shadow) (h.grid shadow grid)⟩

theorem Orderly.trans {moved : Prop} {s t u : State} (h : Orderly moved s t) (k : Orderly moved t u) : Orderly moved s u :=
  ⟨h.toLawful.trans k.toLawful, k.bound ∘ h.bound⟩

/-- A section of the refresh joins as one entry, and what follows leaves the queue. -/
theorem joinRefresh_join (b : Block) (off : Nat) (bytes : List Byte) (s : State) :
    ∃ e, Steady (s.join e) (joinRefresh b off bytes s) := by
  refine ⟨areaWrite s b (0x8000 + off) (beatsOf (bytes.take chunkSize)) false false .plain, ?_⟩
  unfold joinRefresh
  simp only
  split
  · exact steady_refreshDone (steady_refl _)
  · exact (steady_askFirst ..).mpr (steady_refl _)

/-- A request joins as one entry, and what the block does as it joins leaves the queue (R16). -/
theorem joinOp_join (b : Block) (op : InjOp) (s : State) : ∃ e, Steady (s.join e) (joinOp b op s) := by
  cases op with
  | refresh k => exact joinRefresh_join ..
  | refreshRest off bytes => exact joinRefresh_join ..
  | statusRest off bytes =>
    refine ⟨areaWrite s b (0x8000 + off) (beatsOf (bytes.take chunkSize)) false false .plain, ?_⟩
    simp only [joinOp]
    split
    · exact steady_finishInit (steady_refl _)
    · exact (steady_askFirst ..).mpr (steady_refl _)
  | earlyRecord bytes last =>
    refine ⟨areaWrite s .rpw (0x10000 + 32 * (s.rpw.evProd.toNat % 1024)) (beatsOf bytes) false true .plain, ?_⟩
    simp only [joinOp, joinEvent]
    split
    · exact (steady_ask ..).mpr ((steady_onRpw _).mpr (steady_refl _))
    · exact (steady_onRpw _).mpr (steady_refl _)
  | receipt c =>
    exact ⟨_, steady_finishSlot ((steady_onRing ..).mpr (steady_refl _)) c⟩
  | statusPage => exact ⟨_, (steady_askFirst ..).mpr (steady_refl _)⟩
  | snapRow row => exact ⟨_, steady_rowCopied (steady_refl _) row⟩
  | snapClosing => exact ⟨_, steady_closeSnapshot (steady_refl _)⟩
  | eventRecord bytes =>
    simp only [joinOp, joinEvent, steady_onRpw]
    exact ⟨_, steady_refl _⟩
  | eventsLostRecord bytes k =>
    exact ⟨_, (steady_onRpw (t := joinEvent bytes s) _).mpr ((steady_onRpw (t := s.join _) _).mpr (steady_refl _))⟩
  | doneIndices =>
    simp only [joinOp, joinIndices, steady_onRpw]
    exact ⟨_, steady_refl _⟩
  | digestRecord bytes =>
    simp only [joinOp, steady_onRpw]
    exact ⟨_, steady_refl _⟩
  | commandStatus slot bytes =>
    simp only [joinOp, steady_onRpw]
    exact ⟨_, steady_refl _⟩
  | baselineRead r gen consumer => exact ⟨_, steady_refl _⟩
  | initRead w => exact ⟨_, steady_refl _⟩
  | ringRecord r => exact ⟨_, steady_refl _⟩
  | partRecord part site => exact ⟨_, steady_refl _⟩
  | indices mark => exact ⟨_, steady_refl _⟩
  | snapOpening => exact ⟨_, steady_refl _⟩
  | snapFields => exact ⟨_, steady_refl _⟩

/-- The queue is one entry longer after a request has joined. -/
theorem joinOp_length (b : Block) (op : InjOp) (s : State) :
    (joinOp b op s).lif.injQueue.length = s.lif.injQueue.length + 1 := by
  obtain ⟨e, h⟩ := joinOp_join b op s
  rw [h.queue]
  simp

theorem lawful_joinOp {moved : Prop} (b : Block) (op : InjOp) (s : State) : Lawful moved s (joinOp b op s) := by
  obtain ⟨e, h⟩ := joinOp_join b op s
  have joined : Lawful moved s (s.join e) := ⟨rfl, fun _ => rfl, id, fun _ => id⟩
  exact joined.trans h.lawful

theorem orderly_joinOp {moved : Prop} (b : Block) (op : InjOp) (s : State)
    (room : s.lif.injQueue.length < Config.injectionDepth) : Orderly moved s (joinOp b op s) :=
  ⟨lawful_joinOp b op s, fun _ => (joinOp_length b op s).trans_le room⟩

/-- A request taken from those that wait leaves everything else. -/
theorem steady_waiting (s : State) (l : List (Block × InjOp)) : Steady s (s.onLif fun q => { q with injWaiting := l }) := by
  simp

/-- Where the queue has the places that `settleN` is given, it ends within its bound, and a request waits only where it is
full. -/
theorem orderly_settleN {moved : Prop} (n : Nat) (s : State) (places : s.lif.injQueue.length + n ≤ Config.injectionDepth) :
    Orderly moved s (settleN n s) := by
  induction n generalizing s with
  | zero => exact (steady_refl s).orderly
  | succ n ih =>
    unfold settleN
    split
    · exact (steady_refl s).orderly
    · next w rest _ =>
      have taken := steady_waiting s rest
      have room : (s.onLif fun q => { q with injWaiting := rest }).lif.injQueue.length < Config.injectionDepth := by
        rw [taken.queue]
        omega
      refine taken.orderly.trans ((orderly_joinOp w.1 w.2 _ room).trans (ih _ ?_))
      rw [joinOp_length, taken.queue]
      omega

/-- A request goes on waiting only where every place has been taken. -/
theorem settleN_waiting (n : Nat) (s : State) :
    (settleN n s).lif.injWaiting = [] ∨ (settleN n s).lif.injQueue.length = s.lif.injQueue.length + n := by
  induction n generalizing s with
  | zero => exact .inr rfl
  | succ n ih =>
    unfold settleN
    split
    · exact .inl ‹_›
    · next w rest _ =>
      refine (ih _).imp id fun full => ?_
      rw [full, joinOp_length, (steady_waiting s rest).queue]
      omega

theorem orderly_settle {moved : Prop} (s : State) : Orderly moved s (settle s) := by
  by_cases bound : s.lif.injQueue.length ≤ Config.injectionDepth
  · exact orderly_settleN _ s (by omega)
  · rw [settle_full s (by omega)]
    exact (steady_refl s).orderly

/-- `settle` leaves a request waiting only where the queue is full (R16). -/
theorem settle_queueFits (s : State) (bound : s.lif.injQueue.length ≤ Config.injectionDepth) : (settle s).QueueFits := by
  refine ⟨(orderly_settle (moved := False) s).bound bound, ?_⟩
  refine (settleN_waiting _ s).imp id fun full => ?_
  rw [settle, full]
  omega

/-- The request that has waited longest takes a place that frees (R16). -/
theorem lawful_fillPlace {moved : Prop} (s : State) : Lawful moved s (fillPlace s) := by
  unfold fillPlace
  split
  · exact (steady_refl s).lawful
  · next w rest _ =>
    have joined := (steady_waiting s rest).lawful.trans (lawful_joinOp (moved := moved) w.1 w.2 _)
    exact joined.trans (Steady.lawful (by simp [rotateWaiting]))

/-- One request at most takes a place that frees. -/
theorem fillPlace_length (s : State) : (fillPlace s).lif.injQueue.length ≤ s.lif.injQueue.length + 1 := by
  unfold fillPlace
  split
  · exact Nat.le_succ _
  · next w rest _ =>
    exact ((joinOp_length w.1 w.2 _).trans (by rw [(steady_waiting s rest).queue])).le

/-- A granted entry leaves the queue, and one waiting request at most joins in its place (R16, R18). -/
theorem orderly_grantInjection {moved : Prop} (s : State) (head : s.lif.injQueue ≠ []) :
    Orderly moved s (grantInjection s) := by
  have granted : Lawful moved s (s.onLif fun l => { l with
      injQueue := l.injQueue.drop 1, injInFlight := l.injInFlight ++ l.injQueue.take 1, arbCount := 0 }) :=
    ⟨rfl, fun _ => rfl, id, fun _ => id⟩
  refine ⟨granted.trans (lawful_fillPlace _), fun bound => (fillPlace_length _).trans ?_⟩
  have := List.length_pos_of_ne_nil head
  simp only [State.onLif_lif, List.length_drop]
  omega

theorem orderly_arbitrate {moved : Prop} (s : State) : Orderly moved s (arbitrate s) := by
  have forward : ∀ n, Orderly moved s (grantForward n s) := fun n => Steady.orderly (by simp [grantForward])
  have injection : s.issuable = true → Orderly moved s (grantInjection s) := by
    refine fun due => orderly_grantInjection s fun empty => ?_
    simp [State.issuable, empty] at due
  unfold arbitrate
  simp only
  split
  · exact (steady_refl s).orderly
  · exact forward _
  · exact injection ‹_›
  · split
    · exact forward _
    · exact injection ‹_›

/-! ## The steps with a request of their own to settle -/

theorem orderly_takeVisit {moved : Prop} {body : State → State} (s : State) (steady : Steady s (body s)) :
    Orderly moved s (takeVisit body s) := by
  have settled : Orderly moved s
      (settle (markEvents (fun q => { q with ofVisit := true }) s.rpw.events.length (body s))) :=
    (Steady.orderly (by simp [steady])).trans (orderly_settle _)
  rcases takeVisit_cases body s with ⟨_, _, eq⟩ | ⟨_, eq⟩ <;> rw [eq]
  · exact settled.trans (Steady.orderly (by simp))
  · exact settled.trans (Steady.orderly (by simp))

theorem orderly_visitStep {moved : Prop} {body : State → State} (s : State) (steady : Steady s (body s)) :
    Orderly moved s (visitStep body s) := by
  rcases visitStep_cases body s with ⟨_, eq⟩ | ⟨_, eq⟩ <;> rw [eq]
  · exact Steady.orderly (by simp)
  · exact orderly_takeVisit s steady

theorem orderly_reeferEntries {moved : Prop} (e : DispatchEntry) (f : Frame) (d : Option DirResult) (n : Nat)
    (l : List Nat) (s : State) : Orderly moved s (reeferEntries e f d n l s).1 := by
  induction l generalizing s with
  | nil => exact (steady_refl s).orderly
  | cons j js ih =>
    unfold reeferEntries
    lift_lets
    intro res left
    have taken : Steady s res.1 := steady_reeferEntry (steady_refl s) ..
    clear_value res left
    split
    · exact taken.orderly
    · split
      · exact taken.orderly.trans (ih _)
      · next i _ =>
        have triggered : Steady s (trigger i res.1) := steady_trigger taken i
        split
        · exact triggered.orderly.trans (ih _)
        · split
          · exact taken.orderly
          · have settled : Orderly moved s (settle (trigger i res.1)) := triggered.orderly.trans (orderly_settle _)
            generalize settle (trigger i res.1) = u at settled
            simp only
            split
            · exact settled
            · exact settled.trans (ih _)

@[simp] theorem steady_finishFrame {s t : State} (h : Steady s t) (e : DispatchEntry) (f : Frame) (d : Option DirResult) :
    Steady s (finishFrame e f d t) := by
  unfold finishFrame releaseHead
  refine steady_resumePaused ((steady_onRmn _).mpr (steady_freeBuffer ?_ _)) _
  split <;> simp [h]

theorem orderly_reeferStep {moved : Prop} (e : DispatchEntry) (f : Frame) (d : Option DirResult) (n next : Nat)
    (s : State) : Orderly moved s (reeferStep e f d n next s) := by
  unfold reeferStep
  simp only
  have entries := orderly_reeferEntries (moved := moved) e f d n ((List.range (frameCount f)).drop next) s
  split
  · exact entries.trans (Steady.orderly (by simp))
  · exact entries.trans (Steady.orderly (by simp))

theorem orderly_beginFrame {moved : Prop} (e : DispatchEntry) (s : State) : Orderly moved s (beginFrame e s) := by
  unfold beginFrame
  lift_lets
  intro f t res d left
  have dir : Steady s res.1 := steady_dirStep (steady_refl s) ..
  clear_value f t res d left
  have crane : Steady s (if frameKind f = 1 ∧ res.1.ccu.cfg.craneEn = true then
      craneStep e.ring f e.runTime t left d res.1 else res.1) := by
    split
    · exact steady_craneStep dir ..
    · exact dir
  generalize (if frameKind f = 1 ∧ res.1.ccu.cfg.craneEn = true then
    craneStep e.ring f e.runTime t left d res.1 else res.1) = u at crane
  simp only
  split
  · exact crane.orderly.trans (orderly_reeferStep ..)
  · exact (steady_finishFrame crane ..).orderly

theorem orderly_handleFrame {moved : Prop} (s : State) : Orderly moved s (handleFrame s) := by
  unfold handleFrame
  split
  · exact (steady_refl s).orderly
  · next e _ _ =>
    split
    · exact orderly_beginFrame e s
    · unfold resumeFrame
      simp only
      split
      · exact (Steady.orderly (by simp)).trans (orderly_reeferStep ..)
      · next i _ =>
        have settled : Orderly moved s (settle (trigger i s)) := (Steady.orderly (by simp)).trans (orderly_settle _)
        split
        · exact settled.trans (Steady.orderly (by simp))
        · exact settled.trans ((Steady.orderly (by simp)).trans (orderly_reeferStep ..))

end Sys2Proof.Machine
end

section
/-! # What every step keeps: the laws of the commands

Every command is orderly: it leaves the clocks but for the time commands' offset, and the laws of the shadow, the grid and the
injection queue hold after it where they held before. O56 to O60 are read off that. -/

namespace Sys2Proof.Machine

/-! ## The executor and the time commands -/

/-- A record taken is orderly where its body is (R179, R180). -/
theorem orderly_runCommand {moved : Prop} (enabled : Bool) {body : Record → State → State × Status}
    (orderly : ∀ q u, Orderly moved u (body q u).1) (s : State) : Orderly moved s (runCommand enabled body s) := by
  unfold runCommand
  lift_lets
  intro q u n
  have begun : Steady s u := (steady_onRpw _).mpr (steady_refl s)
  clear_value u
  split
  · have marked : Steady (body q u).1 (completeCommand (body q u).2 (markCommandEvents n (body q u).1)) :=
      steady_completeCommand (steady_markEvents (steady_refl _) ..) _
    exact begun.orderly.trans ((orderly q u).trans marked.orderly)
  · exact (steady_completeCommand begun _).orderly

/-- A change of the offset moves the offset alone (R154, R155). -/
theorem orderly_setOffset {moved : Prop} (moves : moved) (code : Nat) (o : Word64) (s : State) :
    Orderly moved s (setOffset code o s) :=
  ⟨⟨rfl, fun still => absurd moves still, id, fun _ => id⟩, id⟩

/-! ## What a command leads to -/

/-- Whatever `o` leads to from `s` is orderly, and fits the injection queue where `s` does. -/
def Settles (moved : Prop) (s : State) (o : Host.Outcome State Fault Refusal) : Prop :=
  ∀ t, o = .next t → Orderly moved s t ∧ (s.QueueFits → t.QueueFits)

/-- A step whose effect is orderly, or that is not due, settles. -/
theorem settles_stepWhen {moved : Prop} {due : Bool} {body : State → State} {s : State} (orderly : Orderly moved s (body s)) :
    Settles moved s (.next (stepWhen due body s)) := by
  rintro t ⟨⟩
  cases due
  · exact ⟨(steady_refl s).orderly, id⟩
  · exact ⟨orderly.trans (orderly_settle _), fun fits => settle_queueFits _ (orderly.bound fits.1)⟩

/-- A step whose effect is steady settles. -/
theorem Steady.settles {moved : Prop} {due : Bool} {body : State → State} {s : State} (steady : Steady s (body s)) :
    Settles moved s (.next (stepWhen due body s)) := settles_stepWhen steady.orderly

/-- A host command whose body is orderly settles. -/
theorem settles_takeCommand {moved : Prop} {k : CommandKind} {enabled : Bool} {body : Record → State → State × Status}
    {s : State} (orderly : ∀ q u, Orderly moved u (body q u).1) : Settles moved s (takeCommand k enabled body s) :=
  settles_stepWhen (orderly_runCommand enabled orderly s)

/-- A host command whose body is steady settles. -/
theorem settles_takeCommand_steady {moved : Prop} {k : CommandKind} {enabled : Bool}
    {body : Record → State → State × Status} {s : State} (steady : ∀ q u, Steady u (body q u).1) :
    Settles moved s (takeCommand k enabled body s) := settles_takeCommand fun q u => (steady q u).orderly

/-- A U-link command is refused by its shape, or settles as its step does. -/
theorem settles_shaped {moved : Prop} {ill : Bool} {s : State} {o : Host.Outcome State Fault Refusal}
    (h : Settles moved s o) : Settles moved s (if ill then .refused .illFormed else o) := by
  split
  · exact fun t refused => nomatch refused
  · exact h

/-- Every command but PIN_RESET is orderly, and keeps the injection queue; the time commands alone move the offset. -/
theorem exec_settles (c : Instr) (s : State) (noReset : ∀ p, c ≠ .pinReset p) :
    Settles (c = .setTime ∨ c = .adjustTime) s (exec c s) := by
  cases c with
  | pinReset p => exact absurd rfl (noReset p)
  | resetRelease caSel => exact ((steady_onPins _).mpr (steady_refl s)).settles
  | ulinkWrite x addr beats => exact settles_shaped (steady_ulinkWrite (steady_refl s) ..).settles
  | ulinkRead x addr burst => exact settles_shaped ((steady_onLif _ (by exact fun _ => rfl)).mpr (steady_refl s)).settles
  | dlinkGrant => exact settles_stepWhen (orderly_arbitrate s)
  | forwardResponse i ok data => exact (steady_forwardResponse (steady_refl s) ..).settles
  | injectedWriteAnswer i ok => exact (steady_injectedWriteAnswer (steady_refl s) ..).settles
  | injectedReadAnswer i ok data => exact (steady_injectedReadAnswer (steady_refl s) ..).settles
  | ringDisableComplete r => exact (steady_finishDisabling (steady_refl s) r).settles
  | slotCommit r => exact (steady_commitSlot (steady_refl s) r).settles
  | downlinkSlotCommit r => exact (steady_commitDownlink (steady_refl s) r).settles
  | dispatchFrame => exact settles_stepWhen (orderly_handleFrame s)
  | deadlineExpiry k => exact (steady_expire (steady_refl s) k).settles
  | nop => exact settles_takeCommand_steady fun q u => steady_refl u
  | unknownCommand => exact settles_takeCommand_steady fun q u => steady_refl u
  | setTime => exact settles_takeCommand fun q u => orderly_setOffset (.inl rfl) 1 _ u
  | adjustTime => exact settles_takeCommand fun q u => orderly_setOffset (.inr rfl) 2 _ u
  | sweepNow => exact settles_takeCommand_steady fun q u => steady_sweepTrigger (steady_refl u) _
  | registerTerminal => exact settles_takeCommand_steady fun q u => steady_doRegister (steady_refl u) q
  | deregisterTerminal => exact settles_takeCommand_steady fun q u => steady_doDeregister (steady_refl u) q
  | bindCrane => exact settles_takeCommand_steady fun q u => steady_doBind (steady_refl u) q
  | unbindCrane => exact settles_takeCommand_steady fun q u => steady_doUnbind (steady_refl u) q
  | forceHold => exact settles_takeCommand_steady fun q u => steady_doForceHold (steady_refl u) q
  | releaseHold => exact settles_takeCommand_steady fun q u => steady_doReleaseHold (steady_refl u) q
  | addReefer => exact settles_takeCommand_steady fun q u => steady_doAddReefer (steady_refl u) q
  | clearDose => exact settles_takeCommand_steady fun q u => steady_doClearDose (steady_refl u) q
  | retireReefer => exact settles_takeCommand_steady fun q u => steady_doRetire (steady_refl u) q
  | resetBin => exact settles_takeCommand_steady fun q u => steady_doResetBin (steady_refl u) q
  | snapshotCoverage =>
    refine Steady.settles (?_ : Steady s (takeSnapshot s))
    unfold takeSnapshot
    simp only
    split <;> simp
  | snapshotRow => exact ((steady_ask ..).mpr (steady_refl s)).settles
  | sweepPeriodExpiry =>
    exact (steady_sweepTrigger ((steady_onTbs _ (by exact fun _ => rfl) (by exact fun _ => rfl)).mpr (steady_refl s)) .period).settles
  | sweepInEdge => exact (steady_sweepTrigger (steady_refl s) _).settles
  | directoryAgingVisit => exact settles_stepWhen (orderly_visitStep s (steady_ageTerm (steady_refl s) _))
  | reeferVisit =>
    refine settles_stepWhen (orderly_visitStep s ?_)
    split
    · exact steady_visitReefer (steady_refl s) _
    · exact steady_refl s
  | gridAgingVisit =>
    refine settles_stepWhen (orderly_visitStep s ?_)
    split
    · exact steady_ageBin (steady_refl s) _
    · exact steady_refl s
  | refreshSection =>
    exact ((steady_ask ..).mpr ((steady_onTbs _ (by exact fun _ => rfl) (by exact fun _ => rfl)).mpr (steady_refl s))).settles
  | digestDrainStep => exact (steady_drainStep (steady_refl s)).settles
  | eventTake b =>
    refine Steady.settles (?_ : Steady s (eventTake b s))
    unfold eventTake
    split <;> simp
  | areaInitialisation => exact (steady_initialise (steady_refl s)).settles
  | suspendDrained => exact (steady_enterSuspended (steady_refl s)).settles
  | attnPolChangeInReset => exact ((steady_onPins _).mpr (steady_refl s)).settles

/-! ## The state after pin reset -/

theorem Cfg.reset_inRange : Cfg.reset.InRange := by
  have profile : Profile.reset.InRange := by constructor <;> decide
  constructor
  case profiles => intro p; simpa [Cfg.reset] using profile
  all_goals decide

/-- Settles O60: the reset shadow stands in its ranges, the reset queue is empty and the reset grid is cleared. -/
theorem resetIsSafe : Obligations.ResetIsSafe :=
  ⟨Cfg.reset_inRange, ⟨Nat.zero_le _, .inl rfl⟩, lawful_of_reset rfl⟩

/-! ## The laws of a step -/

/-- A microsecond that passes keeps the laws (R152). -/
theorem tick_eq (s : State) : ∃ n, tick s = s.onTbs fun t => { t with runClock := n } := by
  unfold tick
  split
  · exact ⟨s.tbs.runClock, rfl⟩
  · exact ⟨_, rfl⟩

/-- A law that holds of the reset state, passes with every orderly command and does not read the clock or the queue of commands
passes with every step. -/
theorem step_keeps {law : State → Prop} (reset : ∀ p s, law (pinReset p s))
    (clock : ∀ (s : State) (n : Nat), law s → law (s.onTbs fun t => { t with runClock := n }))
    (pending : ∀ (s : State) (l : List Instr), law s → law { s with pending := l })
    (command : ∀ (c : Instr) (s t : State), Orderly (c = .setTime ∨ c = .adjustTime) s t → (s.QueueFits → t.QueueFits) →
      law s → law t) (s t : State) (holds : law s) (h : step s = .next t) : law t := by
  unfold step at h
  split at h
  · obtain ⟨n, idle⟩ := tick_eq s
    obtain rfl := Host.Outcome.next.inj h
    rw [idle]
    exact clock s n holds
  · next c rest _ =>
    by_cases isReset : ∃ p, c = .pinReset p
    · obtain ⟨p, rfl⟩ := isReset
      obtain rfl := Host.Outcome.next.inj h
      exact reset p _
    · obtain ⟨orderly, fits⟩ := exec_settles c _ (fun p e => isReset ⟨p, e⟩) t h
      exact command c _ t orderly fits (pending s rest holds)

/-- Settles O56: what the clocks of an orderly command are. -/
theorem onlyTimeCommandsMoveTheClocks : Obligations.OnlyTimeCommandsMoveTheClocks := by
  intro c s t h noReset
  obtain ⟨orderly, _⟩ := exec_settles c s noReset t h
  exact ⟨orderly.clock, fun noSet noAdjust => orderly.offset (by simp [noSet, noAdjust])⟩

/-- Settles O57: every command passes the ranges of the shadow on, and a pin reset restores them. -/
theorem stepsKeepTheShadowInRange : Obligations.StepsKeepTheShadowInRange :=
  step_keeps (fun _ _ => resetIsSafe.shadow) (fun _ _ => id) (fun _ _ => id) (fun _ _ _ orderly _ => orderly.shadow)

/-- Settles O58: every command ends with `settle`, from a queue within its bound. -/
theorem stepsKeepTheInjectionQueue : Obligations.StepsKeepTheInjectionQueue :=
  step_keeps (fun _ _ => resetIsSafe.queue) (fun _ _ => id) (fun _ _ => id) (fun _ _ _ _ fits => fits)

/-- Settles O59: every command passes the law of the grid on where the shadow is in its ranges, which it stays in. -/
theorem stepsKeepTheGridLawful : Obligations.StepsKeepTheGridLawful := by
  intro s t shadow grid h
  have both : t.ShadowInRange ∧ t.GridLawful :=
    step_keeps (law := fun s => s.ShadowInRange ∧ s.GridLawful) (fun _ _ => ⟨resetIsSafe.shadow, resetIsSafe.grid⟩)
      (fun _ _ => id) (fun _ _ => id)
      (fun _ _ _ orderly _ laws => ⟨orderly.shadow laws.1, orderly.grid laws.1 laws.2⟩) s t ⟨shadow, grid⟩ h
  exact both.2

end Sys2Proof.Machine
end

section
/-! # Commands of the executor: what a record taken leads to (10_commands_events_and_the_attention_line.md, R179 to R181)

How waiting requests join one behind the other, and the outcomes of a record: completed without an event, refused by its job,
owing its events, each also with a digest written on the way. -/

namespace Sys2Proof.Machine

open Sys2Proof.Claims

/-! ## Requests that join one behind the other (R16) -/

/-- The request that waits longest joins, and the rest goes on for the places that are left. -/
theorem settle_cons {s : State} {b : Block} {op : InjOp} {rest : List (Block × InjOp)}
    (h : s.lif.injWaiting = (b, op) :: rest) (room : s.lif.injQueue.length < Config.injectionDepth) :
    settle s = settle (joinOp b op (s.onLif fun l => { l with injWaiting := rest })) := by
  obtain ⟨n, hn⟩ : ∃ n, Config.injectionDepth - s.lif.injQueue.length = n + 1 :=
    ⟨Config.injectionDepth - s.lif.injQueue.length - 1, by omega⟩
  have left : Config.injectionDepth - (joinOp b op (s.onLif fun l => { l with injWaiting := rest })).lif.injQueue.length =
      n := by
    rw [joinOp_length, (steady_waiting s rest).queue]
    omega
  rw [settle, settle, hn, left, settleN_succ n s b op rest h]

/-- A request asked for where none waits joins at once. -/
theorem settle_ask {s : State} {b : Block} {op : InjOp} (quiet : s.lif.injWaiting = [])
    (room : s.lif.injQueue.length < Config.injectionDepth) : settle (s.ask b op) = settle (joinOp b op s) := by
  rw [settle_cons (s := s.ask b op) (b := b) (op := op) (rest := []) (by simp [quiet]) room, ask_alone s b op quiet]

/-- Of two requests asked for where none waits the first joins first. -/
theorem settle_ask_ask {s : State} {b b' : Block} {op op' : InjOp} (quiet : s.lif.injWaiting = [])
    (room : s.lif.injQueue.length < Config.injectionDepth) :
    settle ((s.ask b op).ask b' op') = settle (joinOp b op (s.ask b' op')) := by
  have order : ((s.ask b op).ask b' op').lif.injWaiting = (b, op) :: [(b', op')] := by simp [quiet]
  rw [settle_cons order room]
  have same : ((s.ask b op).ask b' op').onLif (fun l => { l with injWaiting := [(b', op')] }) = s.ask b' op' := by
    simp [State.ask, State.onLif, quiet]
  rw [same]

/-- The requests of three asked for where none waits join in their order. -/
theorem settle_ask_ask_ask {s : State} {b b' b'' : Block} {op op' op'' : InjOp} (quiet : s.lif.injWaiting = [])
    (room : s.lif.injQueue.length < Config.injectionDepth) :
    settle (((s.ask b op).ask b' op').ask b'' op'') = settle (joinOp b op ((s.ask b' op').ask b'' op'')) := by
  have order : (((s.ask b op).ask b' op').ask b'' op'').lif.injWaiting = (b, op) :: [(b', op'), (b'', op'')] := by
    simp [quiet]
  rw [settle_cons order room]
  have same : (((s.ask b op).ask b' op').ask b'' op'').onLif
      (fun l => { l with injWaiting := [(b', op'), (b'', op'')] }) = (s.ask b' op').ask b'' op'' := by
    simp [State.ask, State.onLif, quiet]
  rw [same]

/-! ## A digest and its section (R187, R189) -/

/-- A digest joins at index Dp, and Dp rises by 1 (R187). -/
theorem joinOp_digestRecord (bytes : List Byte) (s : State) :
    joinOp .rpw (.digestRecord bytes) s =
      injected (areaEntry .rpw (0x18000 + 32 * (s.rpw.dgProd.toNat % 1024)) (beatsOf bytes) false s) (dpRaised s) := rfl

/-- The output ring indices section joins as it stands (R189). -/
theorem joinOp_indices (b : Block) (mark : Bool) (s : State) :
    joinOp b (.indices mark) s = injected (indicesEntry mark s) s := rfl

theorem indicesEntry_injected (mark : Bool) (e : InjEntry) (s : State) :
    indicesEntry mark (injected e s) = indicesEntry mark s := rfl

theorem indicesEntry_ask (mark : Bool) (s : State) (b : Block) (op : InjOp) :
    indicesEntry mark (s.ask b op) = indicesEntry mark s := rfl

theorem injected_ask (e : InjEntry) (s : State) (b : Block) (op : InjOp) :
    injected e (s.ask b op) = (injected e s).ask b op := rfl

/-- The section behind a digest completes it. -/
theorem joinOp_indices_digest (r : Reefer) (n : Nat) (retired : Bool) (s : State) :
    joinOp .rpw (.indices false) (injected (digestEntry r n s retired) (dpRaised s)) = digestWritten r n s retired := by
  have same : indicesEntry false (injected (digestEntry r n s retired) (dpRaised s)) = indicesEntry false (dpRaised s) :=
    indicesEntry_injected ..
  have joins := joinOp_indices .rpw false (injected (digestEntry r n s retired) (dpRaised s))
  rw [same] at joins
  exact joins

/-- The digest of record `r` is asked for, and its section behind it (R187, R189). -/
def askDigest (r : Reefer) (n : Nat) (retired : Bool) (s : State) : State :=
  (s.ask .rpw (.digestRecord (digestBytes r n retired s.site))).ask .rpw (.indices false)

theorem writeDigest_eq (i : Fin 2048) (n : Nat) (retired : Bool) (s : State) :
    writeDigest i n retired s = askDigest (s.reefer i) n retired s := rfl

/-- A digest taken into a free slot is written with its section, where the queue has two places, and what is asked for behind it
joins after it. -/
theorem settle_askDigest_ask {s : State} (r : Reefer) (n : Nat) (retired : Bool) (b : Block) (op : InjOp)
    (quiet : s.lif.injWaiting = []) (room : s.lif.injQueue.length + 2 ≤ Config.injectionDepth) :
    settle ((askDigest r n retired s).ask b op) = settle ((digestWritten r n s retired).ask b op) := by
  have place : (injected (digestEntry r n s retired) (dpRaised s)).lif.injQueue.length <
      Config.injectionDepth := by
    simp only [injected, dpRaised, List.length_append, List.length_singleton]
    omega
  have first : joinOp .rpw (.digestRecord (digestBytes r n retired s.site))
      ((s.ask .rpw (.indices false)).ask b op) =
      ((injected (digestEntry r n s retired) (dpRaised s)).ask .rpw (.indices false)).ask b op := by
    rw [joinOp_digestRecord]
    rfl
  have second : joinOp .rpw (.indices false) ((injected (digestEntry r n s retired) (dpRaised s)).ask b op) =
      (digestWritten r n s retired).ask b op := by
    rw [joinOp_indices, indicesEntry_ask, injected_ask, ← joinOp_indices .rpw, joinOp_indices_digest]
  rw [askDigest, settle_ask_ask_ask quiet (by omega), first, settle_ask_ask (s := injected _ (dpRaised s)) quiet place, second]

/-- A digest taken into a free slot is written with its section, where the queue has two places. -/
theorem settle_askDigest {s : State} (r : Reefer) (n : Nat) (retired : Bool) (quiet : s.lif.injWaiting = [])
    (room : s.lif.injQueue.length + 2 ≤ Config.injectionDepth) :
    settle (askDigest r n retired s) = digestWritten r n s retired := by
  have place : (injected (digestEntry r n s retired) (dpRaised s)).lif.injQueue.length <
      Config.injectionDepth := by
    simp only [injected, dpRaised, List.length_append, List.length_singleton]
    omega
  have first : joinOp .rpw (.digestRecord (digestBytes r n retired s.site)) (s.ask .rpw (.indices false)) =
      (injected (digestEntry r n s retired) (dpRaised s)).ask .rpw (.indices false) := by
    rw [joinOp_digestRecord]
    rfl
  rw [askDigest, settle_ask_ask quiet (by omega), first, settle_ask (s := injected _ (dpRaised s)) quiet place, joinOp_indices_digest]
  exact settle_idle _ quiet

/-- A digest ring with a free slot. -/
theorem digestFree_pos_iff (s : State) : 1 ≤ s.digestFree ↔ DigestFits s := by
  simp only [State.digestFree, Config.outputRingSize, DigestFits]
  omega

/-! ## A record in progress -/

/-- A record that is due is run, and the requests it made join. -/
theorem takeCommand_due {k : CommandKind} {s : State} (h : Takes k s) (enabled : Bool)
    (body : Record → State → State × Status) :
    takeCommand k enabled body s = .next (settle (runCommand enabled body s)) := by
  rw [takeCommand, commandDue_of_takes h, stepWhen_true]

/-- A command whose job is off completes with nothing done (R180). -/
theorem takeCommand_disabled {k : CommandKind} {s : State} (h : Takes k s) (body : Record → State → State × Status) :
    takeCommand k false body s = .next (completed .jobDisabled s) := by
  have room : s.lif.injQueue.length < Config.injectionDepth := h.ready.room
  rw [takeCommand_due h]
  exact congrArg Host.Outcome.next (settle_completeCommand_underWay .jobDisabled s h.ready.quiet room h.taken)

/-- A record whose body raised `l` owes these events, and keeps its status until they are taken (R180; log 10). -/
theorem runCommand_raised {body : Record → State → State × Status} {s v : State} {st : Status} {l : List EventReq}
    (outcome : body s.nextRecord (underWay s) = (raised l v, st)) (some : l ≠ [])
    (rpw : v.rpw = (underWay s).rpw) : runCommand true body s = owing st l v := by
  have run : runCommand true body s = completeCommand (body s.nextRecord (underWay s)).2
      (markCommandEvents s.rpw.events.length (body s.nextRecord (underWay s)).1) := rfl
  have marked : markCommandEvents s.rpw.events.length (raised l v) =
      (raised l v).onRpw fun r => { r with events := s.rpw.events ++ l.map byCommand } := by
    apply markCommandEvents_append
    simp [raised, rpw, underWay]
  obtain ⟨q, hq⟩ := List.exists_mem_of_ne_nil l some
  rw [run, outcome, marked,
    completeCommand_owing _ _ (byCommand q) (List.mem_append_right _ (List.mem_map_of_mem hq)) rfl]
  simp [owing, raised, State.onRpw, rpw, underWay]

theorem owing_injected (st : Status) (l : List EventReq) (e : InjEntry) (s : State) :
    owing st l (injected e s) = injected e (owing st l s) := rfl

theorem owing_dpRaised (st : Status) (l : List EventReq) (s : State) : owing st l (dpRaised s) = dpRaised (owing st l s) := rfl

theorem digestEntry_owing (r : Reefer) (n : Nat) (st : Status) (l : List EventReq) (s : State) (retired : Bool) :
    digestEntry r n (owing st l s) retired = digestEntry r n s retired := rfl

theorem indicesEntry_owing (mark : Bool) (st : Status) (l : List EventReq) (s : State) :
    indicesEntry mark (owing st l s) = indicesEntry mark s := rfl

/-- That a command owes its events does not show in a digest. -/
theorem digestWritten_owing (r : Reefer) (n : Nat) (st : Status) (l : List EventReq) (s : State) (retired : Bool) :
    digestWritten r n (owing st l s) retired = owing st l (digestWritten r n s retired) := by
  simp only [digestWritten, owing_injected, ← owing_dpRaised, digestEntry_owing, indicesEntry_owing]

/-- A command that is taken, its job on, and whose body leads to `t` with the events `l` gives its status, whose write waits for
them. -/
theorem takeCommand_owing {k : CommandKind} {body : Record → State → State × Status} {s t : State} {st : Status}
    {l : List EventReq} (h : Takes k s) (outcome : body s.nextRecord (underWay s) = (raised l (underWay t), st))
    (some : l ≠ []) (rpw : t.rpw = s.rpw) (lif : t.lif = s.lif) :
    takeCommand k true body s = .next (owing st l t) := by
  have same : (underWay t).rpw = (underWay s).rpw := by
    simp [underWay, rpw]
  rw [takeCommand_due h, runCommand_raised outcome some same]
  exact congrArg Host.Outcome.next (settle_idle (owing st l t) (by simpa [owing, lif] using h.ready.quiet))

/-- A command whose body leads to `t` with the events `l` and a digest of record `r` writes the digest, and its status waits for
the events. -/
theorem takeCommand_owing_digest {k : CommandKind} {body : Record → State → State × Status} {s t : State} {st : Status}
    {l : List EventReq} {r : Reefer} {n : Nat} {retired : Bool} (h : Takes k s)
    (outcome : body s.nextRecord (underWay s) = (raised l (askDigest r n retired (underWay t)), st))
    (some : l ≠ []) (rpw : t.rpw = s.rpw) (lif : t.lif = s.lif) (room : Ready 2 s) :
    takeCommand k true body s = .next (owing st l (digestWritten r n t retired)) := by
  have same : (askDigest r n retired (underWay t)).rpw = (underWay s).rpw := by
    simp [askDigest, underWay, rpw]
  rw [takeCommand_due h, runCommand_raised outcome some same]
  have quiet : (owing st l t).lif.injWaiting = [] := by simpa [owing, lif] using h.ready.quiet
  have places : (owing st l t).lif.injQueue.length + 2 ≤ Config.injectionDepth := by
    simpa [owing, lif, Config.injectionDepth] using room.room
  have written := settle_askDigest r n retired quiet places
  rw [digestWritten_owing] at written
  exact congrArg Host.Outcome.next written

/-- The status write of a command that owes nothing completes it. -/
theorem completed_of_owing (st : Status) (s : State) :
    ((owing st [] s).join (areaWrite (owing st [] s) .rpw (0x1000 + 64 * (s.rpw.done.toNat % 256))
      [packBeat 1 (statusBytes st s.site)] false false .commandStatus)).onRpw (fun r => { r with exec := .writingBack }) =
      completed st s := by
  simp [completed, owing, State.join, State.onLif, State.onRpw, areaWrite, statusEntry, statusBytes, State.areaBase]

/-- A command whose body leads to `t` with no event and a digest of record `r` completes behind the digest. -/
theorem takeCommand_silent_digest {k : CommandKind} {body : Record → State → State × Status} {s t : State} {st : Status}
    {r : Reefer} {n : Nat} {retired : Bool} (h : Takes k s)
    (outcome : body s.nextRecord (underWay s) = (askDigest r n retired (underWay t), st))
    (rpw : t.rpw = s.rpw) (lif : t.lif = s.lif) (room : Ready 3 s) :
    takeCommand k true body s = .next (completed st (digestWritten r n t retired)) := by
  have quiet : t.lif.injWaiting = [] := lif ▸ h.ready.quiet
  have places : t.lif.injQueue.length + 3 ≤ Config.injectionDepth := lif ▸ room.room
  have taken : ∀ q ∈ t.rpw.events, q.ofCommand = false := rpw ▸ h.taken
  have unmarked : markCommandEvents s.rpw.events.length (askDigest r n retired (underWay t)) =
      askDigest r n retired (underWay t) := by
    rw [← rpw]
    exact markCommandEvents_silent (askDigest r n retired (underWay t))
  have run : runCommand true body s = completeCommand st (askDigest r n retired (underWay t)) := by
    change completeCommand (body s.nextRecord (underWay s)).2
      (markCommandEvents s.rpw.events.length (body s.nextRecord (underWay s)).1) = _
    rw [outcome, unmarked]
  let u : State := owing st [] t
  have asked : completeCommand st (askDigest r n retired (underWay t)) = (askDigest r n retired u).ask .rpw
      (.commandStatus (t.rpw.done.toNat % 256) (statusBytes st t.site)) :=
    by
      rw [completeCommand_silent st (askDigest r n retired (underWay t)) rfl taken]
      simp [u, owing, askDigest, State.ask, State.onLif, State.onRpw, underWay, State.site]
  have written : (digestWritten r n u retired).lif.injQueue.length = t.lif.injQueue.length + 2 := by
    simp [digestWritten, injected, dpRaised, u, owing]
  have room2 : u.lif.injQueue.length + 2 ≤ Config.injectionDepth := by
    change t.lif.injQueue.length + 2 ≤ _
    omega
  rw [takeCommand_due h, run, asked, settle_askDigest_ask (s := u) r n retired _ _ quiet room2,
    settle_status (digestWritten r n u retired) _ _ quiet (by omega), digestWritten_owing]
  exact congrArg Host.Outcome.next (completed_of_owing st _)

end Sys2Proof.Machine
end

section
/-! # Commands of the executor, the time base, the directory and the crane supervisor

What each body does in each of its cases, and the outcome of the command (R54 to R56, R64, R74, R75, R154 to R160, R180). -/

namespace Sys2Proof.Machine

open Sys2Proof.Claims

/-- An event request joins those that wait. -/
theorem raise_eq_raised (s : State) (b : Block) (k : EventKind) (sk : SubjKind) (n : Nat) (d0 d1 d2 : Int) :
    s.raise b k sk n d0 d1 d2 = raised [event b k sk n d0 d1 d2] s := rfl

section
variable {k : CommandKind} {enabled : Bool} {body : Record → State → State × Status} {s t : State} {st : Status}
  (h : Takes k s)
include h

/-- A command whose job is off. -/
theorem takeCommand_off (off : enabled = false) : takeCommand k enabled body s = .next (completed .jobDisabled s) := by
  rw [off]
  exact takeCommand_disabled h body

/-- A command, its job on, that its body refuses or that finds nothing to do changes nothing but the executor. -/
theorem takeCommand_unchanged (on : enabled = true) (outcome : body s.nextRecord (underWay s) = (underWay s, st)) :
    takeCommand k enabled body s = .next (completed st s) := by
  rw [on]
  exact takeCommand_silent h outcome rfl rfl

/-- A command, its job on, whose body leads to `t` and raises nothing. -/
theorem takeCommand_done (on : enabled = true) (outcome : body s.nextRecord (underWay s) = (underWay t, st))
    (rpw : t.rpw = s.rpw) (lif : t.lif = s.lif) : takeCommand k enabled body s = .next (completed st t) := by
  rw [on]
  exact takeCommand_silent h outcome rpw lif

/-- A command, its job on, whose body leads to `t` and raises one event. -/
theorem takeCommand_told {q : EventReq} (on : enabled = true)
    (outcome : body s.nextRecord (underWay s) = (raised [q] (underWay t), st)) (rpw : t.rpw = s.rpw) (lif : t.lif = s.lif) :
    takeCommand k enabled body s = .next (owing st [q] t) := by
  rw [on]
  exact takeCommand_owing h outcome (List.cons_ne_nil _ _) rpw lif

end

/-- Settles O28: NOP and an unknown code have bodies that do nothing, a command whose job is off has none. -/
theorem emptyAndRefusedCommandsChangeNothing : Obligations.EmptyAndRefusedCommandsChangeNothing := by
  intro s
  refine ⟨fun h => takeCommand_unchanged h rfl rfl, fun h => takeCommand_unchanged h rfl rfl, takeCommand_off,
    takeCommand_off, takeCommand_off, takeCommand_off, takeCommand_off, takeCommand_off, takeCommand_off, takeCommand_off,
    ?snapshot⟩
  case snapshot =>
    intro h off
    have refused : takeSnapshot s = completeCommand .jobDisabled (underWay s) := by
      simp [takeSnapshot, off, underWay]
    change Host.Outcome.next (stepWhen (s.commandDue .snapshotCoverage) takeSnapshot s) = _
    rw [commandDue_of_takes h, stepWhen_true, refused,
      settle_completeCommand_underWay .jobDisabled s h.ready.quiet h.ready.room h.taken]

/-! ## Site time (R154, R155) -/

/-- Settles O29: the site time after SET_TIME is the time set, after ADJUST_TIME the old one moved. -/
theorem timeCommandsMoveTheOffset : Obligations.TimeCommandsMoveTheOffset := by
  intro s v a now
  constructor
  · intro h
    have site : now + (v - now) = v := by simp [BitVec.add_comm now]
    have set : doSetTime s.nextRecord (underWay s) = (raised [event .tbs .timeSet .part 0 1 (low48 s.site)
        (low48 (now + (v - now)))] (underWay { s with tbs := { s.tbs with offset := v - now } }), .done) := rfl
    rw [site] at set
    exact takeCommand_told h rfl set rfl rfl
  · intro h
    have site : now + (s.tbs.offset + a) = s.site + a := (BitVec.add_assoc ..).symm
    have set : doAdjustTime s.nextRecord (underWay s) = (raised [event .tbs .timeSet .part 0 2 (low48 s.site)
        (low48 (now + (s.tbs.offset + a)))] (underWay { s with tbs := { s.tbs with offset := s.tbs.offset + a } }), .done) :=
      rfl
    rw [site] at set
    exact takeCommand_told h rfl set rfl rfl

/-! ## SWEEP_NOW (R158 to R160) -/

/-- Settles O30: the two cases of a trigger in a RUNNING part. -/
theorem sweepNowBeginsOrOverruns : Obligations.SweepNowBeginsOrOverruns := by
  intro s h n
  constructor
  · intro idle
    have begins : doSweepNow s.nextRecord (underWay s) = (underWay { s with tbs := sweepBegun s }, .done) := by
      simp [doSweepNow, sweepTrigger, underWay, h.running, idle, beginSweep, sweepBegun, State.onTbs, State.onRpw, State.site]
    exact takeCommand_done h rfl begins rfl rfl
  · intro busy
    have overruns : doSweepNow s.nextRecord (underWay s) =
        (raised [event .tbs .sweepOverrun .part n 0 (phaseCode s.tbs.phase) s.tbs.cursor]
          (underWay { s with tbs := { s.tbs with restart := true, overruns := n } }), .done) := by
      have late : sweepTrigger .command (underWay s) = overrun .command (underWay s) := by
        simp [sweepTrigger, underWay, h.running, busy]
      rw [doSweepNow, late]
      rfl
    exact takeCommand_told h rfl overruns rfl rfl

/-! ## The directory's commands (R54 to R56) -/

/-- The first element of a table that meets a test is the one with the lowest index. -/
theorem find?_finRange_lowest {n : Nat} {p : Fin n → Bool} {i : Fin n} (hit : p i = true) (lower : ∀ j < i, p j = false) :
    (List.finRange n).find? p = some i := by
  refine List.find?_eq_some_iff_getElem.mpr ⟨hit, i.val, by simp, by simp, fun j hj => ?_⟩
  simpa using lower ⟨j, by omega⟩ hj

/-- No element of a table meets a test that none meets. -/
theorem find?_finRange_none {n : Nat} {p : Fin n → Bool} (none : ∀ i, p i = false) : (List.finRange n).find? p = .none :=
  List.find?_eq_none.mpr fun i _ => by simp [none i]

/-- The code of a kind names it. -/
theorem termKindOf_code (k : TermKind) : termKindOf (termKindCode k) = some k := by cases k <;> rfl

/-- A code beyond those of the kinds names none. -/
theorem termKindOf_beyond : ∀ {n : Nat}, 4 ≤ n → termKindOf n = none
  | _ + 4, _ => rfl

/-- The byte of an optional bin reads back as it. -/
theorem optBinOf_optFin (b : Option (Fin 64)) : optBinOf (optFin b) = some b := by
  cases b with
  | none => rfl
  | some b =>
    have : b.val ≠ 255 := by omega
    simp [optBinOf, optFin, this]

theorem optBinOf_beyond {n : Nat} (low : 64 ≤ n) (present : n ≠ 255) : optBinOf n = none := by
  rw [optBinOf, if_neg present, dif_neg (by omega)]

/-- A byte that is absent or below 64 names an optional bin. -/
theorem optBinOf_isSome {n : Nat} (h : n < 64 ∨ n = 255) : ∃ b, optBinOf n = some b := by
  rcases h with low | absent
  · exact ⟨some ⟨n, low⟩, by rw [optBinOf, if_neg (by omega), dif_pos low]⟩
  · exact ⟨none, by rw [optBinOf, if_pos absent]⟩

/-- A terminal that is found has neither of the reserved ids. -/
theorem findTerm_not_reserved {s : State} {id : BitVec 16} {i : Fin 256} (h : s.findTerm id = some i) :
    ¬(id = 0 ∨ id = 0xFFFF) := by
  intro reserved
  rw [findTerm_reserved s reserved] at h
  cases h

theorem freeTermIndex_lowest {s : State} {i : Fin 256} (free : (s.entry i).st = .free)
    (lower : ∀ j, j < i → (s.entry j).st ≠ .free) : s.freeTermIndex = some i :=
  find?_finRange_lowest (by simp [free]) fun j hj => by simp [lower j hj]

theorem freeTermIndex_none {s : State} (full : ∀ j, (s.entry j).st ≠ .free) : s.freeTermIndex = none :=
  find?_finRange_none fun j => by simp [full j]

/-- One round of the search for the LEARNED entry heard longest ago. -/
def olderLearned (s : State) (best : Option (Fin 256)) (i : Fin 256) : Option (Fin 256) :=
  if (s.entry i).st == .learned then
    match best with
    | none => some i
    | some j => if (s.entry i).lastSeen < (s.entry j).lastSeen then some i else some j
  else best

theorem oldestLearned_eq (s : State) : s.oldestLearned = (List.finRange 256).foldl (olderLearned s) none := rfl

/-- An entry heard no later than those that follow stays the choice. -/
theorem foldl_olderLearned_stays {s : State} {i : Fin 256} {l : List (Fin 256)}
    (oldest : ∀ j ∈ l, (s.entry j).st = .learned → (s.entry i).lastSeen ≤ (s.entry j).lastSeen) :
    l.foldl (olderLearned s) (some i) = some i := by
  induction l with
  | nil => rfl
  | cons j l ih =>
    have stays : olderLearned s (some i) j = some i := by
      unfold olderLearned
      split
      · next learned =>
        have := oldest j List.mem_cons_self (by simpa using learned)
        simp only [Nat.not_lt.mpr this, if_false]
      · rfl
    rw [List.foldl_cons, stays]
    exact ih fun j hj => oldest j (List.mem_cons_of_mem _ hj)

/-- The LEARNED entry heard longest ago, the one with the lowest index among equals, is the choice (R55). -/
theorem oldestLearned_some {s : State} {i : Fin 256} (learned : (s.entry i).st = .learned)
    (oldest : ∀ j, (s.entry j).st = .learned →
      (s.entry i).lastSeen < (s.entry j).lastSeen ∨ (s.entry i).lastSeen = (s.entry j).lastSeen ∧ i ≤ j) :
    s.oldestLearned = some i := by
  have later : ∀ j, (s.entry j).st = .learned → (s.entry i).lastSeen ≤ (s.entry j).lastSeen := fun j hj => by
    rcases oldest j hj with lt | ⟨eq, _⟩ <;> omega
  have search : ∀ (l : List (Fin 256)) (best : Option (Fin 256)), i ∈ l → l.Pairwise (· < ·) →
      (∀ j, best = some j → (s.entry i).lastSeen < (s.entry j).lastSeen) → l.foldl (olderLearned s) best = some i := by
    intro l
    induction l with
    | nil => exact fun _ mem => nomatch mem
    | cons j l ih =>
      intro best mem sorted beaten
      obtain ⟨first, sorted⟩ := List.pairwise_cons.mp sorted
      rcases List.mem_cons.mp mem with rfl | mem
      · have taken : olderLearned s best i = some i := by
          unfold olderLearned
          rw [if_pos (by simp [learned])]
          split
          · rfl
          · next k => rw [if_pos (beaten k rfl)]
        rw [List.foldl_cons, taken]
        exact foldl_olderLearned_stays fun k _ => later k
      · refine ih _ mem sorted fun k chosen => ?_
        have earlier : (s.entry j).st = .learned → (s.entry i).lastSeen < (s.entry j).lastSeen := fun hj =>
          (oldest j hj).elim id fun ⟨_, le⟩ => absurd (first i mem) (by omega)
        unfold olderLearned at chosen
        split at chosen
        · next hj =>
          split at chosen
          · cases chosen
            exact earlier (by simpa using hj)
          · split at chosen <;> cases chosen
            · exact earlier (by simpa using hj)
            · exact beaten _ rfl
        · exact beaten k chosen
  rw [oldestLearned_eq]
  exact search _ none (List.mem_finRange i) (List.pairwise_lt_finRange 256) fun _ none => nomatch none

/-- Where no entry is LEARNED none is the oldest. -/
theorem oldestLearned_none {s : State} (none : ∀ j, (s.entry j).st ≠ .learned) : s.oldestLearned = .none := by
  have skips : ∀ l : List (Fin 256), l.foldl (olderLearned s) .none = .none := by
    intro l
    induction l with
    | nil => rfl
    | cons j l ih => simpa [olderLearned, none j] using ih
  exact skips _

/-- Freeing an entry without a last cell clears it (R48). -/
theorem freeTerm_detached {i : Fin 256} {s : State} (none : (s.entry i).lastCell = .none) :
    freeTerm i s = withEntry i .reset s := by
  have cell : s.tdr.entries[i.val].lastCell = .none := none
  simp [freeTerm, withEntry, State.onTdr, upd, attachMove, cell]

/-- Freeing an entry with a last cell also lowers the attach count of the cell (R48). -/
theorem freeTerm_attached {i : Fin 256} {s : State} {c : Fin 16} (some : (s.entry i).lastCell = .some c) :
    freeTerm i s = { withEntry i .reset s with
      tdr := { (withEntry i .reset s).tdr with attach := s.tdr.attach.set c (s.tdr.attach[c] - 1) } } := by
  have cell : s.tdr.entries[i.val].lastCell = .some c := some
  simp [freeTerm, withEntry, State.onTdr, upd, attachMove, cell]

/-- A registration in the first FREE entry, or in place of the LEARNED entry heard longest ago (R55). -/
theorem doRegister_new {q : Record} {k : TermKind} {h : Option (Fin 64)} {s : State}
    (kind : rdLe q 10 1 = termKindCode k) (home : optBinOf (rdLe q 11 1) = some h) (zero : BitVec.ofNat 16 (rdLe q 8 2) ≠ 0)
    (top : BitVec.ofNat 16 (rdLe q 8 2) ≠ 0xFFFF) (unknown : s.findTerm (BitVec.ofNat 16 (rdLe q 8 2)) = none) :
    doRegister q s = registerNew (BitVec.ofNat 16 (rdLe q 8 2)) k h s := by
  simp only [doRegister, kind, termKindOf_code, home, unknown]
  exact if_neg (not_or.mpr ⟨zero, top⟩)

/-- A registration of a terminal that is found (R54). -/
theorem doRegister_known {q : Record} {k : TermKind} {h : Option (Fin 64)} {s : State} {i : Fin 256}
    (kind : rdLe q 10 1 = termKindCode k) (home : optBinOf (rdLe q 11 1) = some h)
    (known : s.findTerm (BitVec.ofNat 16 (rdLe q 8 2)) = some i) : doRegister q s = reRegister i k h s := by
  simp only [doRegister, kind, termKindOf_code, home, known]
  exact if_neg (findTerm_not_reserved known)

/-- A registration with an argument out of range is refused (R54, R55). -/
theorem doRegister_refused {q : Record} {s : State} (bad : 4 ≤ rdLe q 10 1 ∨ BitVec.ofNat 16 (rdLe q 8 2) = 0 ∨
    BitVec.ofNat 16 (rdLe q 8 2) = 0xFFFF ∨ (64 ≤ rdLe q 11 1 ∧ rdLe q 11 1 ≠ 255)) :
    doRegister q s = (s, .badArgument) := by
  unfold doRegister
  split
  · next kind home =>
    refine if_pos ?_
    rcases bad with beyond | zero | top | ⟨low, present⟩
    · rw [termKindOf_beyond beyond] at kind
      cases kind
    · exact .inl zero
    · exact .inr top
    · rw [optBinOf_beyond low present] at home
      cases home
  · rfl

/-- The entry that a registration makes. -/
def registeredAt (now : Nat) (id : BitVec 16) (k : TermKind) (h : Option (Fin 64)) : Terminal :=
  { Terminal.reset with st := .registered, id := id, kind := k, homeBin := h, lastBin := h, lastSeen := now }

/-- A new entry replaces what was there. -/
theorem newRegistered_eq (i : Fin 256) (id : BitVec 16) (k : TermKind) (h : Option (Fin 64)) (s : State) :
    newRegistered i id k h s = withEntry i (registeredAt s.now id k h) s := rfl

/-- An entry replaced twice holds what came last. -/
theorem withEntry_withEntry (i : Fin 256) (e e' : Terminal) (s : State) :
    withEntry i e' (withEntry i e s) = withEntry i e' s := by
  simp [withEntry]

/-- The entry that an evicted terminal leaves is the new one's, and its attach count falls (R48, R55). -/
theorem newRegistered_freeTerm {i : Fin 256} {id : BitVec 16} {k : TermKind} {h : Option (Fin 64)} {s : State} :
    ((s.entry i).lastCell = none →
      newRegistered i id k h (freeTerm i s) = withEntry i (registeredAt s.now id k h) s) ∧
    ∀ c, (s.entry i).lastCell = some c → newRegistered i id k h (freeTerm i s) =
      { withEntry i (registeredAt s.now id k h) s with
        tdr := { (withEntry i (registeredAt s.now id k h) s).tdr with
          attach := s.tdr.attach.set c (s.tdr.attach[c] - 1) } } := by
  constructor
  · intro none
    rw [freeTerm_detached none, newRegistered_eq, withEntry_withEntry]
    rfl
  · intro c some
    rw [freeTerm_attached some, newRegistered_eq]
    simp [withEntry, State.now]

/-- Settles O31: a new terminal goes to the lowest FREE entry or to that of the one evicted, a known one keeps its own. -/
theorem registerTerminalMakesAnEntry : Obligations.RegisterTerminalMakesAnEntry := by
  intro s k h id home
  have new (bin : Option (Fin 64)) (kind : rdLe s.nextRecord 10 1 = termKindCode k) (hbin : optBinOf home = some bin)
      (zero : id ≠ 0) (top : id ≠ 0xFFFF) (unknown : s.findTerm id = none) :
      doRegister s.nextRecord (underWay s) = registerNew id k bin (underWay s) :=
    doRegister_new kind hbin zero top unknown
  refine ⟨fun kind zero top unknown => ⟨?free, ?evict, ?full⟩, ?known, ?refused⟩
  case free =>
    intro bin i hbin free lower
    have outcome : doRegister s.nextRecord (underWay s) =
        (underWay (withEntry i (registeredAt s.now id k bin) s), .done) := by
      rw [new bin kind (hbin ▸ optBinOf_optFin bin) zero top unknown, registerNew,
        show (underWay s).freeTermIndex = some i from freeTermIndex_lowest free lower]
      rfl
    exact takeCommand_done h rfl outcome rfl rfl
  case evict =>
    intro bin i hbin full learned oldest e made evicts
    have outcome : doRegister s.nextRecord (underWay s) =
        (raised [event .tdr .learnedEvicted .terminal e.id.toNat i.val e.frames id.toNat]
          (underWay (newRegistered i id k bin (freeTerm i s))), .done) := by
      rw [new bin kind (hbin ▸ optBinOf_optFin bin) zero top unknown, registerNew,
        show (underWay s).freeTermIndex = none from freeTermIndex_none full,
        show (underWay s).oldestLearned = some i from oldestLearned_some learned oldest]
      rfl
    have evicted := takeCommand_told (enabled := true) h rfl outcome rfl rfl
    constructor
    · intro none
      rw [newRegistered_freeTerm.1 none] at evicted
      exact evicted
    · intro c some
      rw [newRegistered_freeTerm.2 c some] at evicted
      exact evicted
  case full =>
    intro inRange full
    obtain ⟨bin, hbin⟩ := optBinOf_isSome inRange
    refine takeCommand_unchanged (enabled := true) h rfl ?_
    rw [new bin kind hbin zero top unknown, registerNew,
      show (underWay s).freeTermIndex = none from freeTermIndex_none fun j => (full j).trans_ne (by decide),
      show (underWay s).oldestLearned = none from oldestLearned_none fun j => (full j).trans_ne (by decide)]
  case known =>
    intro bin i kind hbin known e
    have look : doRegister s.nextRecord (underWay s) = reRegister i k bin (underWay s) :=
      doRegister_known kind ((congrArg optBinOf hbin).trans (optBinOf_optFin bin)) known
    constructor
    · intro registered bound other
      refine takeCommand_unchanged (enabled := true) h rfl (look.trans ?_)
      exact if_pos ⟨registered, Option.isSome_iff_ne_none.mpr bound, other⟩
    · intro allowed
      have open_ : ¬(e.st = .registered ∧ e.ctx.isSome ∧ k ≠ .crane) := by
        rintro ⟨registered, bound, other⟩
        rcases allowed with learned | unbound | crane
        · rw [learned] at registered
          cases registered
        · rw [unbound] at bound
          cases bound
        · exact other crane
      have bins : registeredLastBin e bin = if bin ≠ none then bin else if e.homeBin ≠ none then none else e.lastBin := by
        cases bin <;> cases home : e.homeBin <;> simp [registeredLastBin, home]
      rw [← bins]
      exact takeCommand_done (enabled := true) h rfl (look.trans (if_neg open_)) rfl rfl
  case refused =>
    intro bad
    exact takeCommand_unchanged (enabled := true) h rfl (doRegister_refused bad)

/-- Settles O32: the cases of the lookup. -/
theorem deregisterTerminalFreesTheEntry : Obligations.DeregisterTerminalFreesTheEntry := by
  intro s h id
  have unknown : s.findTerm id = none → exec .deregisterTerminal s = .next (completed .notFound s) := by
    intro none
    refine takeCommand_unchanged (enabled := true) h rfl ?_
    rw [doDeregister, show (underWay s).findTerm _ = .none from none]
  refine ⟨unknown, fun reserved => unknown (findTerm_reserved s reserved), ?bound, ?freed⟩
  case bound =>
    intro i known bound
    refine takeCommand_unchanged (enabled := true) h rfl ?_
    rw [doDeregister, show (underWay s).findTerm _ = some i from known]
    exact if_pos (Option.isSome_iff_ne_none.mpr bound)
  case freed =>
    intro i known unbound freed
    have outcome : doDeregister s.nextRecord (underWay s) = (underWay (freeTerm i s), .done) := by
      rw [doDeregister, show (underWay s).findTerm _ = some i from known]
      exact if_neg (Option.not_isSome_iff_eq_none.mpr unbound)
    have done := takeCommand_done (enabled := true) h rfl outcome rfl rfl
    constructor
    · intro c some
      rw [freeTerm_attached some] at done
      exact done
    · intro none
      rw [freeTerm_detached none] at done
      exact done

/-! ## The crane supervisor's commands (R64, R74, R75) -/

/-- A change of a context that keeps its terminal, with an event of the context. -/
theorem craneEvent_onCrane {k : Fin 32} {f : Crane → Crane} {s : State} (kind : EventKind) (d1 d2 : Int)
    (tid : (f (s.crane k)).tid = (s.crane k).tid) : craneEvent k kind d1 d2 (s.onCrane k f) =
      raised [event .csv kind .context k.val (s.crane k).tid.toNat d1 d2] (withCrane k (f (s.crane k)) s) := by
  rw [craneEvent, State.onCrane_crane, tid]
  rfl

/-- Settles O34: the refusals of UNBIND_CRANE in their order, and the unbinding. -/
theorem unbindCraneFreesTheContext : Obligations.UnbindCraneFreesTheContext := by
  intro s k h on n naming
  refine ⟨fun beyond => ?_, fun hn unbound => ?_, fun hn bound => ?_⟩
  · refine takeCommand_unchanged h on ?_
    rw [doUnbind, finOf_eq_none beyond]
  · refine takeCommand_unchanged h on ?_
    rw [doUnbind, show rdLe s.nextRecord 8 1 = k.val from hn, finOf_val]
    exact if_pos unbound
  · refine takeCommand_done h on ?_ rfl rfl
    have same : naming = fun e => if frameTid (s.buffer e.buf).bytes == (s.crane k).tid then { e with named := some k } else e := by
      simp [naming]
    rw [doUnbind, show rdLe s.nextRecord 8 1 = k.val from hn, finOf_val, same]
    exact if_neg bound

/-- Settles O35: the refusals of FORCE_HOLD in their order, and the hold. -/
theorem forceHoldEntersHold : Obligations.ForceHoldEntersHold := by
  intro s k h on n
  refine ⟨fun beyond => ?_, fun hn unbound => ?_, fun hn bound => ?_⟩
  · refine takeCommand_unchanged h on ?_
    rw [doForceHold, finOf_eq_none beyond]
  · refine takeCommand_unchanged h on ?_
    rw [doForceHold, show rdLe s.nextRecord 8 1 = k.val from hn, finOf_val]
    exact if_pos unbound
  · refine takeCommand_told h on ?_ rfl rfl
    rw [doForceHold, show rdLe s.nextRecord 8 1 = k.val from hn, finOf_val]
    refine (if_neg bound).trans ?_
    exact congrArg (·, Status.done) (craneEvent_onCrane _ _ _ rfl)

/-- Settles O36: the refusals of RELEASE_HOLD in their order, and the release. -/
theorem releaseHoldNeedsReady : Obligations.ReleaseHoldNeedsReady := by
  intro s k h on n c
  have look (hn : n = k.val) : doReleaseHold s.nextRecord (underWay s) = if c.st ≠ .hold then (underWay s, .wrongState)
      else if c.ready then (releaseContext k (underWay s), .done) else (underWay s, .notReady) := by
    rw [doReleaseHold, show rdLe s.nextRecord 8 1 = k.val from hn, finOf_val]
    rfl
  refine ⟨fun beyond => ?_, fun hn other => ?_, fun hn hold unready => ?_, fun hn hold ready => ?_⟩
  · refine takeCommand_unchanged h on ?_
    rw [doReleaseHold, finOf_eq_none beyond]
  · exact takeCommand_unchanged h on ((look hn).trans (if_pos other))
  · refine takeCommand_unchanged h on ((look hn).trans ?_)
    simp [hold, unready]
  · refine takeCommand_told h on ((look hn).trans ?_) rfl rfl
    rw [if_neg (by simp [hold]), if_pos ready]
    exact congrArg (·, Status.done) (craneEvent_onCrane _ _ _ rfl)

end Sys2Proof.Machine
end

section
/-! # The evaluation of a bin (07_quay_coverage_map.md, R136 to R138)

An evaluation replaces the bin's row and raises its events; what the row and the events are, in the terms of the statements. -/

namespace Sys2Proof.Machine

open Sys2Proof.Claims

/-! ## The row -/

/-- The number of considered cells in a state. -/
theorem cellsIn_length (c : Cfg) (b : Bin) (st : CellState) : (cellsIn c b st).length = cellsOf c b st := by
  rw [cellsIn, considered, List.filter_filter, ← List.countP_eq_length_filter, cellsOf]
  simp only [Bool.and_comm]

theorem mem_cellsIn {c : Cfg} {b : Bin} {st : CellState} {i : Fin 16} :
    i ∈ cellsIn c b st ↔ i.val < c.cellCount ∧ b.cells[i].st = st := by
  simp [cellsIn, considered, and_comm]

/-- The candidates of an evaluation (R137). -/
theorem mem_candidates {c : Cfg} {attach : Vector Nat 16} {b : Bin} {i : Fin 16} :
    i ∈ candidates c attach b ↔ Candidate c attach b i := by
  unfold candidates Candidate
  simp only
  by_cases unlimited : c.loadLimit = 0
  · simp only [unlimited, if_true, true_or, and_true, mem_cellsIn]
  · rw [if_neg unlimited]
    simp only [unlimited, false_or]
    split
    · next none =>
      have heavy : ∀ j : Fin 16, (j.val < c.cellCount ∧ b.cells[j].st = .good) → c.loadLimit ≤ attach[j] := by
        simpa [mem_cellsIn] using none
      exact mem_cellsIn.trans ⟨fun good => ⟨good, .inr heavy⟩, And.left⟩
    · next some =>
      have light : ∃ j : Fin 16, (j.val < c.cellCount ∧ b.cells[j].st = .good) ∧ attach[j] < c.loadLimit := by
        simpa [mem_cellsIn, and_assoc] using some
      obtain ⟨j, good, below⟩ := light
      rw [List.mem_filter, mem_cellsIn]
      constructor
      · exact fun ⟨good, light⟩ => ⟨good, .inl (of_decide_eq_true light)⟩
      · rintro ⟨good', light | heavy⟩
        · exact ⟨good', decide_eq_true light⟩
        · exact absurd (heavy j good) (by omega)

/-- Candidates come in rising order. -/
theorem candidates_sorted (c : Cfg) (attach : Vector Nat 16) (b : Bin) : (candidates c attach b).Pairwise (· < ·) := by
  have good : (cellsIn c b .good).Pairwise (· < ·) := ((List.pairwise_lt_finRange 16).filter _).filter _
  unfold candidates
  simp only
  split
  · exact good
  · split
    · exact good
    · exact good.filter _

/-- The cell with the largest m, the lowest cell number among equals, is the best (R138). -/
theorem bestOf_some {b : Bin} {l : List (Fin 16)} {i : Fin 16} (sorted : l.Pairwise (· < ·)) (mem : i ∈ l)
    (best : ∀ j ∈ l, b.cells[j].m < b.cells[i].m ∨ b.cells[j].m = b.cells[i].m ∧ i ≤ j) : bestOf b l = some i := by
  induction l with
  | nil => cases mem
  | cons k l ih =>
    obtain ⟨first, sorted⟩ := List.pairwise_cons.mp sorted
    unfold bestOf
    rcases List.mem_cons.mp mem with rfl | mem
    · split
      · rfl
      · next j hj =>
        refine if_pos ?_
        rcases best j (List.mem_cons_of_mem _ (bestOf_mem hj)) with lt | ⟨eq, _⟩
        · exact Int.le_of_lt lt
        · exact Int.le_of_eq eq
    · rw [ih sorted mem fun j hj => best j (List.mem_cons_of_mem _ hj)]
      refine if_neg ?_
      rcases best k List.mem_cons_self with lt | ⟨_, le⟩
      · omega
      · exact absurd (first i mem) (by omega)

/-- The preferred cell where there is a best candidate (R138). -/
theorem prefOf_best {c : Cfg} {b : Bin} {l : List (Fin 16)} {i : Fin 16} (best : bestOf b l = some i) :
    (∀ p, b.pref = some p → p ∈ l →
      prefOf c b l = if b.cells[p].m + c.switchHyst ≤ b.cells[i].m then some i else some p) ∧
    ((∀ p, b.pref = some p → p ∉ l) → prefOf c b l = some i) := by
  constructor
  · intro p pref mem
    simp only [prefOf, best, pref]
    by_cases same : p = i
    · subst same
      simp
    · by_cases far : b.cells[p].m + c.switchHyst ≤ b.cells[i].m
      · rw [if_pos far, if_neg (by omega)]
      · rw [if_neg far, if_pos ⟨mem, same, by omega⟩]
  · intro gone
    simp only [prefOf, best]
    split
    · rfl
    · next p pref => rw [if_neg fun kept => gone p pref kept.1]

/-- The largest m among WEAK cells is that of one of them, and no other is larger (R151). -/
theorem largestWeak_spec {c : Cfg} {b : Bin} (present : 0 < cellsOf c b .weak) :
    (∃ i : Fin 16, i.val < c.cellCount ∧ b.cells[i].st = .weak ∧ b.cells[i].m = largestWeak c b) ∧
    ∀ i : Fin 16, i.val < c.cellCount → b.cells[i].st = .weak → b.cells[i].m ≤ largestWeak c b := by
  have largest : ((cellsIn c b .weak).map fun i => b.cells[i].m).max? = some (largestWeak c b) := by
    unfold largestWeak
    split
    · next none =>
      rw [← cellsIn_length, List.map_eq_nil_iff.mp none] at present
      cases present
    · next all => rw [all, List.max?_cons']
  obtain ⟨mem, above⟩ := List.max?_eq_some_iff.mp largest
  constructor
  · obtain ⟨i, weak, eq⟩ := List.mem_map.mp mem
    obtain ⟨low, st⟩ := mem_cellsIn.mp weak
    exact ⟨i, low, st, eq⟩
  · exact fun i low st => above _ (List.mem_map_of_mem (mem_cellsIn.mpr ⟨low, st⟩))

/-! ## The evaluation -/

/-- The events of an evaluation of bin `b` (R151). -/
def evaluationEvents (s : State) (b : Fin 64) (cause : EvalCause) : List EventReq :=
  evalEvents s.ccu.cfg b (evalCode cause) (largestWeak s.ccu.cfg (s.bin b)) (s.bin b) (evaluatedRow s b)

/-- `s` with the row of bin `b` replaced. -/
def withBin (b : Fin 64) (row : Bin) (s : State) : State := { s with cvm := { s.cvm with bins := s.cvm.bins.set b row } }

theorem onBin_eq_withBin (s : State) (b : Fin 64) (f : Bin → Bin) : s.onBin b f = withBin b (f (s.bin b)) s := rfl

@[simp] theorem withBin_bin (b : Fin 64) (row : Bin) (s : State) : (withBin b row s).bin b = row := by
  simp [withBin, State.bin]

theorem withBin_bin_ne {b d : Fin 64} (row : Bin) (s : State) (other : d ≠ b) : (withBin b row s).bin d = s.bin d :=
  s.onBin_bin_ne b d (fun _ => row) other

theorem withBin_withBin (b : Fin 64) (row row' : Bin) (s : State) : withBin b row' (withBin b row s) = withBin b row' s := by
  simp [withBin]

theorem raised_raised (l m : List EventReq) (s : State) : raised m (raised l s) = raised (l ++ m) s := by
  simp [raised]

theorem raised_nil (s : State) : raised [] s = s := by simp [raised]

/-- The hole event of an evaluation (R136). -/
theorem holeEvent_raised (b : Fin 64) (cause : EvalCause) (c : Cfg) (row : Bin) (s : State) :
    holeEvent b cause row.hole c row s = raised
      (if row.hole = holeOf c row then []
        else if holeOf c row then [event .cvm .binHole .bin b.val (cellsOf c row .weak) (largestWeak c row) (evalCode cause)]
        else [event .cvm .binHoleCleared .bin b.val (cellsOf c row .good)
          (cellsOf c row .good + cellsOf c row .weak : Nat) (evalCode cause)]) s := by
  unfold holeEvent
  simp only [cellsIn_length]
  cases row.hole <;> cases holeOf c row <;> simp [raised_nil, raise_eq_raised]

/-- The preferred-cell event of an evaluation (R138). -/
theorem prefEvent_raised (b : Fin 64) (cause : EvalCause) (old new : Option (Fin 16)) (s : State) :
    prefEvent b cause old new s = raised
      (if old = new then [] else [event .cvm .preferredChanged .bin b.val (optFin old) (optFin new) (evalCode cause)]) s := by
  unfold prefEvent
  split <;> simp [raised_nil, raise_eq_raised]

/-- An evaluation replaces the row and raises its events. -/
theorem evalBin_raised (b : Fin 64) (cause : EvalCause) (s : State) :
    evalBin b cause s = raised (evaluationEvents s b cause) (withBin b (evaluatedRow s b) s) := by
  rw [evalBin_eq, holeEvent_raised, prefEvent_raised, raised_raised, onBin_eq_withBin]
  rfl

/-- What an evaluation led to, from a bin with the same hole flag and preferred cell as the row evaluated. -/
theorem evaluated_evaluatedRow {s : State} {b : Fin 64} {old : Bin} (cause : EvalCause) (hole : old.hole = (s.bin b).hole)
    (pref : old.pref = (s.bin b).pref) :
    Evaluated s.ccu.cfg s.tdr.attach b (evalCode cause) old (evaluatedRow s b) (evaluationEvents s b cause) := by
  have flag : (evaluatedRow s b).hole = true ↔
      cellsOf s.ccu.cfg (s.bin b) .good = 0 ∧ 0 < cellsOf s.ccu.cfg (s.bin b) .weak := by
    simp [evaluatedRow, holeOf, ← cellsIn_length, List.length_pos_iff_ne_nil]
  refine ⟨flag, fun none => ?_, fun i candidate best => ?_, largestWeak s.ccu.cfg (s.bin b), ?_, fun on => ?_⟩
  · have empty : candidates s.ccu.cfg s.tdr.attach (s.bin b) = [] :=
      List.eq_nil_iff_forall_not_mem.mpr fun i mem => none i (mem_candidates.mp mem)
    simp [evaluatedRow, prefOf, empty, bestOf]
  · have chosen : bestOf (s.bin b) (candidates s.ccu.cfg s.tdr.attach (s.bin b)) = some i :=
      bestOf_some (candidates_sorted ..) (mem_candidates.mpr candidate) fun j mem => best j (mem_candidates.mp mem)
    obtain ⟨stays, goes⟩ := prefOf_best (c := s.ccu.cfg) chosen
    exact ⟨fun p old candidate => stays p (pref ▸ old) (mem_candidates.mpr candidate),
      fun gone => goes fun p old mem => gone p (pref.trans old) (mem_candidates.mp mem)⟩
  · simp only [evaluationEvents, evalEvents, hole, pref]
  · exact largestWeak_spec (flag.mp on).2

end Sys2Proof.Machine
end

section
/-! # Commands of the reefer monitor and of the coverage map (R118 to R123, R142 to R145) -/

namespace Sys2Proof.Machine

open Sys2Proof.Claims

/-! ## A digest that a command triggers (R122, R123) -/

theorem withReefer_withReefer (i : Fin 2048) (r r' : Reefer) (s : State) :
    withReefer i r' (withReefer i r s) = withReefer i r' s := by
  simp [withReefer]

@[simp] theorem withReefer_reefer (i : Fin 2048) (r : Reefer) (s : State) : (withReefer i r s).reefer i = r :=
  s.onReefer_reefer i fun _ => r

/-- With no free slot in the digest ring the record owes the digest (R123). -/
theorem trigger_owed {i : Fin 2048} {s : State} (none : (s.reefer i).pending = false) (full : ¬DigestFits s) :
    trigger i s = withReefer i { s.reefer i with pending := true, triggers := 1 }
      { s with rfm := { s.rfm with pendingCount := s.rfm.pendingCount + 1 } } := by
  rw [trigger, if_neg (by simp [none]), if_neg (mt (digestFree_pos_iff s).mp full)]
  rfl

/-- With a free slot in the digest ring the digest is written (R123). -/
theorem trigger_written {i : Fin 2048} {s : State} (none : (s.reefer i).pending = false) (fits : DigestFits s) :
    trigger i s = writeDigest i 1 false s := by
  rw [trigger, if_neg (by simp [none]), if_pos ((digestFree_pos_iff s).mpr fits)]

/-- A digest that the record owes is counted (R123). -/
theorem trigger_counted {i : Fin 2048} {s : State} (owed : (s.reefer i).pending = true) :
    trigger i s = withReefer i { s.reefer i with triggers := min ((s.reefer i).triggers + 1) 255 } s := by
  rw [trigger, if_pos owed]
  rfl

/-- A digest is owed or written whatever events wait. -/
theorem trigger_raised (i : Fin 2048) (l : List EventReq) (s : State) :
    trigger i (raised l s) = raised l (trigger i s) := by
  have free : (raised l s).digestFree = s.digestFree := rfl
  have record : (raised l s).reefer i = s.reefer i := rfl
  unfold trigger
  rw [free, record]
  split
  · rfl
  · split <;> rfl

theorem trigger_underWay (i : Fin 2048) (s : State) : trigger i (underWay s) = underWay (trigger i s) := by
  have free : (underWay s).digestFree = s.digestFree := rfl
  have record : (underWay s).reefer i = s.reefer i := rfl
  unfold trigger
  rw [free, record]
  split
  · rfl
  · split <;> rfl

theorem askDigest_underWay (r : Reefer) (n : Nat) (retired : Bool) (s : State) :
    askDigest r n retired (underWay s) = underWay (askDigest r n retired s) := rfl

/-- A record made by a trigger that owes its digest. -/
theorem trigger_withReefer_owed (i : Fin 2048) {r : Reefer} {s : State} (none : r.pending = false) (full : ¬DigestFits s) :
    trigger i (withReefer i r s) = withReefer i { r with pending := true, triggers := 1 }
      { s with rfm := { s.rfm with pendingCount := s.rfm.pendingCount + 1 } } := by
  have owes := trigger_owed (i := i) (s := withReefer i r s) ((withReefer_reefer i r s).symm ▸ none) full
  rw [withReefer_reefer] at owes
  exact owes.trans (withReefer_withReefer i r _ { s with rfm := { s.rfm with pendingCount := s.rfm.pendingCount + 1 } })

/-- A record made by a trigger that writes its digest. -/
theorem trigger_withReefer_written (i : Fin 2048) {r : Reefer} {s : State} (none : r.pending = false) (fits : DigestFits s) :
    trigger i (withReefer i r s) = writeDigest i 1 false (withReefer i r s) :=
  trigger_written ((withReefer_reefer i r s).symm ▸ none) fits

/-! ## ADD_REEFER (R121) -/

/-- The record that ADD_REEFER makes. -/
def provisioned (tag : Word) (profile : Fin 8) (gw : BitVec 16) (now : Nat) : Reefer :=
  { newReefer tag profile gw with lastReport := now }

/-- The profile that a profile byte names, or the default one (R107). -/
theorem profileByte_getD (p : Nat) (d : Fin 8) :
    (profileByte p).getD d = if p < 8 then Fin.ofNat 8 p else d := by
  by_cases low : p < 8
  · rw [if_pos low, profileByte, finOf, dif_pos low, Option.getD_some]
    exact Fin.ext (Nat.mod_eq_of_lt low).symm
  · rw [if_neg low, profileByte, finOf, dif_neg low, Option.getD_none]

/-- ADD_REEFER makes a record where its arguments are in range, its tag is not known and a way is FREE (R121). -/
theorem doAddReefer_makes {q : Record} {s : State} {i : Fin 2048} {tag : Word} {gw : BitVec 16} {profile : Fin 8}
    (tagged : BitVec.ofNat 32 (rdLe q 8 4) = tag) (through : BitVec.ofNat 16 (rdLe q 14 2) = gw)
    (named : (if rdLe q 12 1 < 8 then Fin.ofNat 8 (rdLe q 12 1) else s.defaultProfile) = profile)
    (inRange : ¬(tag = 0 ∨ (8 ≤ rdLe q 12 1 ∧ rdLe q 12 1 ≠ 255))) (unknown : s.findReefer tag = none)
    (way : s.freeWay tag = some i) :
    doAddReefer q (underWay s) = (raised [event .rfm .reeferNew .tag tag.toNat profile.val gw.toNat 2]
      (underWay (trigger i (withReefer i (provisioned tag profile gw s.now) s))), .done) := by
  have body : doAddReefer q (underWay s) = (trigger i (reeferEvent tag .reeferNew
      ((profileByte (rdLe q 12 1)).getD s.defaultProfile).val gw.toNat 2 ((underWay s).onReefer i fun _ =>
        provisioned tag ((profileByte (rdLe q 12 1)).getD s.defaultProfile) gw s.now)), .done) := by
    unfold doAddReefer
    rw [tagged, through, if_neg inRange, show (underWay s).findReefer _ = none from unknown,
      show (underWay s).freeWay _ = some i from way]
    rfl
  rw [body, profileByte_getD, named]
  change (trigger i (raised [event .rfm .reeferNew .tag tag.toNat profile.val gw.toNat 2]
    (underWay (withReefer i (provisioned tag profile gw s.now) s))), Status.done) = _
  rw [trigger_raised, trigger_underWay]

/-- Settles O37: the refusals of ADD_REEFER in their order, and the record with its digest owed or written. -/
theorem addReeferProvisionsARecord : Obligations.AddReeferProvisionsARecord := by
  intro s i h on tag p gw profile
  have inRange (nonzero : tag ≠ 0) (hp : p < 8 ∨ p = 255) : ¬(tag = 0 ∨ (8 ≤ p ∧ p ≠ 255)) := by
    rintro (zero | ⟨low, present⟩)
    · exact nonzero zero
    · omega
  refine ⟨fun bad => ?bad, fun nonzero hp known => ?known, fun nonzero hp unknown full => ?full,
    fun nonzero hp unknown way full => ?owed, fun nonzero hp unknown way fits room => ?written⟩
  case bad => exact takeCommand_unchanged h on (if_pos bad)
  case known =>
    refine takeCommand_unchanged h on ((if_neg (inRange nonzero hp)).trans (if_pos ?_))
    exact Option.isSome_iff_ne_none.mpr known
  case full =>
    refine takeCommand_unchanged h on ?_
    unfold doAddReefer
    rw [if_neg (inRange nonzero hp), show (underWay s).findReefer _ = none from unknown,
      show (underWay s).freeWay _ = none from full]
    rfl
  case owed =>
    have outcome := doAddReefer_makes (s := s) rfl rfl rfl (inRange nonzero hp) unknown way
    rw [trigger_withReefer_owed i (r := provisioned ..) rfl (Nat.not_lt.mpr full)] at outcome
    exact takeCommand_told h on outcome rfl rfl
  case written =>
    have outcome := doAddReefer_makes (s := s) rfl rfl rfl (inRange nonzero hp) unknown way
    rw [trigger_withReefer_written i (r := provisioned ..) rfl fits, writeDigest_eq, withReefer_reefer, ← askDigest_underWay] at outcome
    have owing := takeCommand_owing_digest h outcome (List.cons_ne_nil _ _) rfl rfl room
    change takeCommand .addReefer s.ccu.cfg.reeferEn doAddReefer s = _
    rw [on]
    exact owing

/-! ## CLEAR_DOSE (R119) -/

/-- A record with its account cleared (R119). -/
def accountCleared (r : Reefer) : Reefer := { r with dose := 0, residue := 0, unobserved := 0, cond := .normal }

/-- CLEAR_DOSE of a known tag clears the account and triggers a digest. -/
theorem doClearDose_clears {q : Record} {s : State} {i : Fin 2048} (nonzero : BitVec.ofNat 32 (rdLe q 8 4) ≠ 0)
    (known : s.findReefer (BitVec.ofNat 32 (rdLe q 8 4)) = some i) :
    doClearDose q (underWay s) = (underWay (trigger i (withReefer i (accountCleared (s.reefer i)) s)), .done) := by
  rw [← trigger_underWay, doClearDose, if_neg nonzero, show (underWay s).findReefer _ = some i from known]
  rfl

/-- Settles O38: the refusals of CLEAR_DOSE in their order, and the three ways of its digest. -/
theorem clearDoseClearsTheAccount : Obligations.ClearDoseClearsTheAccount := by
  intro s i h on tag cleared
  refine ⟨fun zero => ?zero, fun nonzero unknown => ?unknown, fun nonzero known owed => ?counted,
    fun nonzero known none full => ?owed, fun nonzero known none fits room => ?written⟩
  case zero => exact takeCommand_unchanged h on (if_pos zero)
  case unknown =>
    refine takeCommand_unchanged h on ((if_neg nonzero).trans ?_)
    rw [show (underWay s).findReefer _ = none from unknown]
  case counted =>
    have outcome := doClearDose_clears nonzero known
    rw [trigger_counted (by rw [withReefer_reefer]; exact owed), withReefer_reefer, withReefer_withReefer] at outcome
    exact takeCommand_done h on outcome rfl rfl
  case owed =>
    have outcome := doClearDose_clears nonzero known
    rw [trigger_withReefer_owed i (r := accountCleared (s.reefer i)) none full] at outcome
    exact takeCommand_done h on outcome rfl rfl
  case written =>
    have outcome := doClearDose_clears nonzero known
    rw [trigger_withReefer_written i (r := accountCleared (s.reefer i)) none fits, writeDigest_eq, withReefer_reefer, ← askDigest_underWay] at outcome
    have completes := takeCommand_silent_digest h outcome rfl rfl room
    change takeCommand .clearDose s.ccu.cfg.reeferEn doClearDose s = _
    rw [on]
    exact completes

/-! ## Retirement (R118) -/

/-- A record is freed, and owes no digest any more (R118). -/
def retiredFrom (i : Fin 2048) (s : State) : State :=
  { withReefer i .reset s with rfm := { (withReefer i .reset s).rfm with
    pendingCount := if (s.reefer i).pending then s.rfm.pendingCount - 1 else s.rfm.pendingCount
    draining := if (s.reefer i).pending then s.rfm.draining && decide (s.rfm.pendingCount - 1 ≠ 0) else s.rfm.draining } }

/-- REEFER_RETIRED of record `r`, with cause `cause` (R118); the third detail is a free value (log 27). -/
def retiredEvent (r : Reefer) (cause : Nat) (written : Bool) : EventReq :=
  event .rfm .reeferRetired .tag r.tag.toNat cause r.dose (Config.retireDigestWord written).toNat

/-- What REEFER_RETIRED carries, but for the free third detail. -/
theorem retiredEvent_fields (r : Reefer) (cause : Nat) (written : Bool) :
    let q := retiredEvent r cause written
    q.block = .rfm ∧ q.kind = .reeferRetired ∧ q.subjKind = .tag ∧ q.subject = r.tag ∧ q.d0 = BitVec.ofInt 32 cause ∧
      q.d1 = BitVec.ofNat 64 r.dose := by
  simp [retiredEvent, event]

/-- A retirement but for its digest: the record is freed, and REEFER_RETIRED raised. -/
theorem retired_eq (i : Fin 2048) (cause : Nat) (written : Bool) (s : State) :
    reeferEvent (s.reefer i).tag .reeferRetired cause (s.reefer i).dose (Config.retireDigestWord written).toNat
      ((if (s.reefer i).pending then decPending s else s).onReefer i fun _ => .reset) =
      raised [retiredEvent (s.reefer i) cause written] (retiredFrom i s) := by
  cases owed : (s.reefer i).pending
  · simp only [retiredFrom, owed]
    rfl
  · have same : (s.rfm.draining && !(s.rfm.pendingCount - 1 == 0)) =
        (s.rfm.draining && decide (s.rfm.pendingCount - 1 ≠ 0)) := by
      rw [decide_not]
      rfl
    simp only [retiredFrom, owed, if_true, ← same]
    rfl

/-- A retirement with no free slot in the digest ring loses its digest (R118). -/
theorem retire_lost {i : Fin 2048} {s : State} (cause : Nat) (full : ¬DigestFits s) :
    retire i cause s = raised [retiredEvent (s.reefer i) cause false] (retiredFrom i s) := by
  have none : decide (s.digestFree ≥ 1) = false := decide_eq_false (mt (digestFree_pos_iff s).mp full)
  rw [← retired_eq, retire, none]
  rfl

/-- A retirement with a free slot in the digest ring asks for its digest, marked so (R118, R125). -/
theorem retire_written {i : Fin 2048} {s : State} (cause : Nat) (fits : DigestFits s) :
    retire i cause s = raised [retiredEvent (s.reefer i) cause true]
      (askDigest (s.reefer i) (min ((s.reefer i).triggers + 1) 255) true (retiredFrom i s)) := by
  have some : decide (s.digestFree ≥ 1) = true := decide_eq_true ((digestFree_pos_iff s).mpr fits)
  have behind := congrArg (askDigest (s.reefer i) (min ((s.reefer i).triggers + 1) 255) true) (retired_eq i cause true s)
  rw [retire, some]
  refine Eq.trans ?_ behind
  cases (s.reefer i).pending <;> rfl

/-- RETIRE_REEFER of a known tag (R120). -/
theorem doRetire_known {q : Record} {s : State} {i : Fin 2048} (nonzero : BitVec.ofNat 32 (rdLe q 8 4) ≠ 0)
    (known : s.findReefer (BitVec.ofNat 32 (rdLe q 8 4)) = some i) :
    doRetire q (underWay s) = (retire i 2 (underWay s), .done) := by
  rw [doRetire, if_neg nonzero, show (underWay s).findReefer _ = some i from known]

/-- Settles O39: the refusals of RETIRE_REEFER in their order, and the two ways of its digest. -/
theorem retireReeferFreesTheRecord : Obligations.RetireReeferFreesTheRecord := by
  intro s i h on tag
  refine ⟨fun zero => ?zero, fun nonzero unknown => ?unknown,
    fun nonzero known => ⟨fun full => ?lost, fun fits room => ?written⟩⟩
  case zero => exact takeCommand_unchanged h on (if_pos zero)
  case unknown =>
    refine takeCommand_unchanged h on ((if_neg nonzero).trans ?_)
    rw [show (underWay s).findReefer _ = none from unknown]
  case lost =>
    have outcome := doRetire_known nonzero known
    rw [retire_lost (s := underWay s) 2 full] at outcome
    exact ⟨_, takeCommand_told h on outcome rfl rfl, retiredEvent_fields ..⟩
  case written =>
    have outcome := doRetire_known nonzero known
    rw [retire_written (s := underWay s) 2 fits] at outcome
    refine ⟨retiredEvent (s.reefer i) 2 true, ?_, retiredEvent_fields ..⟩
    have owes := takeCommand_owing_digest (t := retiredFrom i s) (r := s.reefer i) (n := min ((s.reefer i).triggers + 1) 255)
      (retired := true) (l := [retiredEvent (s.reefer i) 2 true]) h outcome (List.cons_ne_nil _ _) rfl rfl room
    change takeCommand .retireReefer s.ccu.cfg.reeferEn doRetire s = _
    rw [on]
    exact owes

/-! ## RESET_BIN (R142) -/

/-- A row of cleared cells. -/
def rowCleared (row : Bin) : Bin := { row with cells := Vector.replicate 16 .reset }

/-- A row of cleared cells has no qualified cell. -/
theorem cellsOf_rowCleared (c : Cfg) (row : Bin) {st : CellState} (qualified : st ≠ .unknown) :
    cellsOf c (rowCleared row) st = 0 := by
  have empty : ∀ i : Fin 16, ((rowCleared row).cells[i]).st = .unknown := by simp [rowCleared, Cell.reset]
  rw [cellsOf, List.countP_eq_zero]
  intro i _
  rw [empty i]
  simp [qualified.symm]

/-- A row of cleared cells evaluates to an empty row, whose events name the hole and the preferred cell it had. -/
theorem evaluated_rowCleared (s : State) (b : Fin 64) (row : Bin) (cleared : s.bin b = rowCleared row) :
    evaluatedRow s b = { cells := Vector.replicate 16 .reset, hole := false, pref := none } ∧
    evaluationEvents s b .reset =
      (if row.hole then [event .cvm .binHoleCleared .bin b.val 0 0 4] else []) ++
        (if row.pref = none then [] else [event .cvm .preferredChanged .bin b.val (optFin row.pref) 255 4]) := by
  have good := cellsOf_rowCleared s.ccu.cfg row (st := .good) (by decide)
  have weak := cellsOf_rowCleared s.ccu.cfg row (st := .weak) (by decide)
  have noneGood : cellsIn s.ccu.cfg (rowCleared row) .good = [] := by
    rw [← List.length_eq_zero_iff, cellsIn_length, good]
  have noneWeak : cellsIn s.ccu.cfg (rowCleared row) .weak = [] := by
    rw [← List.length_eq_zero_iff, cellsIn_length, weak]
  have result : evaluatedRow s b = { cells := Vector.replicate 16 .reset, hole := false, pref := none } := by
    have hole : holeOf s.ccu.cfg (rowCleared row) = false := by simp [holeOf, noneWeak]
    have empty : candidates s.ccu.cfg s.tdr.attach (rowCleared row) = [] := by simp [candidates, noneGood]
    simp only [evaluatedRow, cleared, hole, empty]
    rfl
  refine ⟨result, ?_⟩
  have goodAfter : cellsOf s.ccu.cfg (evaluatedRow s b) .good = 0 := by
    rw [result]
    exact good
  have weakAfter : cellsOf s.ccu.cfg (evaluatedRow s b) .weak = 0 := by
    rw [result]
    exact weak
  simp only [evaluationEvents, evalEvents, goodAfter, weakAfter]
  rw [result, cleared]
  cases hole : row.hole <;> simp [rowCleared, hole, optFin, evalCode]

/-- A command, its job on, whose body leads to `t` with the events `l`: its status waits for them where there are any. -/
theorem takeCommand_decided {k : CommandKind} {body : Record → State → State × Status} {s t : State} {st : Status}
    {l : List EventReq} (h : Takes k s) (outcome : body s.nextRecord (underWay s) = (raised l (underWay t), st))
    (rpw : t.rpw = s.rpw) (lif : t.lif = s.lif) :
    ∃ v, takeCommand k true body s = .next v ∧ SameBut true false false false false false false false true t v ∧
      v.rpw.result = some st ∧ v.rpw.events = s.rpw.events ++ l.map byCommand := by
  cases l with
  | nil =>
    rw [raised_nil] at outcome
    exact ⟨completed st t, takeCommand_silent h outcome rpw lif, by simp [SameBut, completed], rfl, by simp [completed, rpw]⟩
  | cons q m =>
    exact ⟨owing st (q :: m) t, takeCommand_owing h outcome (List.cons_ne_nil q m) rpw lif, by simp [SameBut, owing], rfl,
      by simp [owing, rpw]⟩

/-- Settles O40: the row cleared is evaluated, and its events are those of an empty row. -/
theorem resetBinClearsTheRow : Obligations.ResetBinClearsTheRow := by
  intro s b h on n
  constructor
  · intro beyond
    refine takeCommand_unchanged h on ?_
    exact if_neg (Nat.not_lt.mpr beyond)
  · intro hn inUse
    let u := withBin b (rowCleared (s.bin b)) (underWay s)
    have cleared : u.bin b = rowCleared (s.bin b) := withBin_bin ..
    obtain ⟨row, events⟩ := evaluated_rowCleared u b (s.bin b) cleared
    have outcome : doResetBin s.nextRecord (underWay s) =
        (raised (evaluationEvents u b .reset) (underWay (withBin b (evaluatedRow u b) s)), .done) := by
      have body : doResetBin s.nextRecord (underWay s) = (evalBin b .reset u, .done) := by
        unfold doResetBin
        simp only [show rdLe s.nextRecord 8 1 = b.val from hn, finOf_val]
        exact if_pos (hn ▸ inUse)
      rw [body, evalBin_raised, withBin_withBin]
      rfl
    obtain ⟨t, taken, same, result, raises⟩ := takeCommand_decided h outcome rfl rfl
    obtain ⟨pending, pins, _, rmn, tdr, csv, rfm, cvm, tbs, ccu, _⟩ := same
    have grid : t.cvm = (withBin b (evaluatedRow u b) s).cvm := cvm rfl
    have bins : ∀ d, t.bin d = (withBin b (evaluatedRow u b) s).bin d := fun d => by simp only [State.bin, grid]
    refine ⟨t, ?_, ⟨pending, pins, nofun, rmn, tdr, csv, rfm, nofun, tbs, ccu, nofun⟩, fun d other => ?_, ?_,
      by rw [grid]; rfl, by rw [grid]; rfl, result, ?_⟩
    · change takeCommand .resetBin s.ccu.cfg.coverageEn doResetBin s = _
      rw [on]
      exact taken
    · exact (bins d).trans (withBin_bin_ne _ _ other)
    · exact (bins b).trans ((withBin_bin ..).trans row)
    · rw [raises, events, List.append_assoc, List.map_append]
      cases (s.bin b).hole <;> cases (s.bin b).pref <;> rfl

/-! ## Snapshots (R143 to R145) -/

/-- Settles O41: the opening write joins at once. -/
theorem snapshotOpens : Obligations.SnapshotOpens := by
  intro s h on
  have opens : takeSnapshot s = beginSnapshot (underWay s) := if_pos on
  change Host.Outcome.next (stepWhen (s.commandDue .snapshotCoverage) takeSnapshot s) = _
  rw [commandDue_of_takes h, stepWhen_true, opens, beginSnapshot,
    settle_ask (s := (underWay s).onCvm _) h.ready.quiet h.ready.room]
  exact congrArg Host.Outcome.next (settle_idle _ h.ready.quiet)

/-- With no request waiting no row is abandoned. -/
theorem dropRows_quiet {s : State} (quiet : s.lif.injWaiting = []) : dropRows s = s := by
  obtain ⟨_, _, ⟨_, _, _, _, _, _, _, _, _, _, _, _, _⟩, _, _, _, _, _, _, _, _⟩ := s
  subst quiet
  rfl

/-- The status write of the command in progress joins at once where its events are taken (R181). -/
theorem settle_completeCommand {s : State} (st : Status) (quiet : s.lif.injWaiting = [])
    (room : s.lif.injQueue.length < Config.injectionDepth) (executing : s.rpw.exec = .executing)
    (taken : ∀ q ∈ s.rpw.events, q.ofCommand = false) : settle (completeCommand st s) = completed st s := by
  let u : State := s.onRpw fun r => { r with result := some st }
  have asked : completeCommand st s = u.ask .rpw (.commandStatus (s.rpw.done.toNat % 256) (statusBytes st s.site)) :=
    completeCommand_silent st s executing taken
  rw [asked, settle_status u _ _ quiet room]
  rfl

/-- The writes that end a snapshot DONE (R145): the fields, the closing write, and the command's status write behind it. -/
theorem settle_endSnapshot {s : State} (quiet : s.lif.injWaiting = []) (room : s.lif.injQueue.length + 3 ≤ 16)
    (executing : s.rpw.exec = .executing) (taken : ∀ q ∈ s.rpw.events, q.ofCommand = false) :
    settle (endSnapshot .done s) =
      { s with
        cvm := { s.cvm with snapRunning := false, outcome := .done, gen := s.cvm.gen + 1 }
        rpw := { s.rpw with exec := .writingBack, result := some .done }
        lif := { s.lif with injQueue := s.lif.injQueue ++
          [areaEntry .cvm 0x8020 [packBeat 4 (leBytes 1 1 ++ leBytes 1 s.cvm.copied)] false s,
            areaEntry .cvm 0x8020 (beatsOf (leBytes 4 (s.cvm.gen + 1).toNat)) true s, statusEntry .done s] } } := by
  let u : State := s.onCvm fun m => { m with snapRunning := false, outcome := .done, gen := s.cvm.gen + 1 }
  let fields := areaEntry .cvm 0x8020 [packBeat 4 (leBytes 1 1 ++ leBytes 1 s.cvm.copied)] false s
  let closing := areaEntry .cvm 0x8020 (beatsOf (leBytes 4 (s.cvm.gen + 1).toNat)) true s
  have depth : Config.injectionDepth = 16 := rfl
  have ends : endSnapshot .done s = (u.ask .cvm .snapFields).ask .cvm .snapClosing := by
    rw [endSnapshot, dropRows_quiet quiet]
  have first : joinOp .cvm .snapFields (u.ask .cvm .snapClosing) = (injected fields u).ask .cvm .snapClosing := rfl
  have second : joinOp .cvm .snapClosing (injected fields u) = completeCommand .done (injected closing (injected fields u)) := rfl
  have queued : (injected closing (injected fields u)).lif.injQueue.length = s.lif.injQueue.length + 2 := by
    simp [injected, u]
  rw [ends, settle_ask_ask (s := u) quiet (show s.lif.injQueue.length < _ by omega), first,
    settle_ask (s := injected fields u) quiet (by simp [injected, u]; omega), second,
    settle_completeCommand .done (s := injected closing (injected fields u)) quiet (by omega) executing taken]
  simp [completed, u, injected, fields, closing, State.onCvm, statusEntry, State.areaBase, State.site]

/-- Settles O42: a row joins at once; behind the last one join the fields, the closing write and the status write. -/
theorem snapshotRowIsCopied : Obligations.SnapshotRowIsCopied := by
  intro s b running next row
  have bin : Fin.ofNat 64 s.cvm.nextBin = b := Fin.ext (by simp [next])
  have asks (n : Nat) (ready : Ready (n + 1) s) : exec .snapshotRow s = .next (settle (rowCopied b (injected row s))) := by
    have due : s.rowDue = true := by
      simp [State.rowDue, ready.released, running, next, (blocked_quiet s .cvm ready.quiet).2.2]
    have room : s.lif.injQueue.length < Config.injectionDepth := by
      have := ready.room
      simp only [Config.injectionDepth]
      omega
    change Host.Outcome.next (stepWhen s.rowDue _ s) = _
    rw [due, stepWhen_true, bin, settle_ask ready.quiet room]
    rfl
  constructor
  · intro low ready
    rw [asks 0 ready, rowCopied, if_neg (by omega)]
    exact congrArg Host.Outcome.next (settle_idle _ ready.quiet)
  · intro last ready executing taken
    have top : b = 63 := Fin.ext last
    rw [asks 3 ready, rowCopied, if_pos top, settle_endSnapshot (s := (injected row s).onCvm _) ready.quiet
      (by have := ready.room; simp [injected]; omega) executing taken]
    refine ⟨_, rfl, ⟨rfl, rfl, nofun, fun _ => rfl, fun _ => rfl, fun _ => rfl, fun _ => rfl, nofun, fun _ => rfl,
      fun _ => rfl, nofun⟩, ?_, rfl, ?_⟩
    · simp [next, last, injected]
    · simp [injected, areaEntry, row, State.areaBase, statusEntry, State.site]

end Sys2Proof.Machine
end

section
/-! # The step, the pins, the arbiter and memory's answers (R1, R2, R5, R9, R16 to R22, R165, R190) -/

namespace Sys2Proof.Machine

open Sys2Proof.Claims

/-! ## The step (log 1, log 2) -/

/-- Settles O1. -/
theorem stepTakesTheFrontCommand : Obligations.StepTakesTheFrontCommand := by
  intro c rest s front
  simp only [step, front]

/-- Settles O2. -/
theorem idleStepLetsAMicrosecondPass : Obligations.IdleStepLetsAMicrosecondPass := by
  intro s idle
  rw [step_idle s idle]
  rfl

/-! ## The pins (R22, R165, R190) -/

section
variable (p : Bool) (s : State)

theorem pinReset_slot (r : Fin 16) : (pinReset p s).slot r = .empty := by
  simp [pinReset, State.slot, State.reset, Lif.reset]

theorem pinReset_shadows (r : Fin 16) : (pinReset p s).lif.prodShadow[r] = [] ∧ (pinReset p s).lif.consShadow[r] = [] := by
  simp [pinReset, State.reset, Lif.reset]

theorem pinReset_ring (r : Fin 16) : (pinReset p s).ring r = .reset := by
  simp [pinReset, State.ring, State.reset, Rmn.reset]

theorem pinReset_buffer (b : Fin 64) : (pinReset p s).buffer b = .reset := by
  simp [pinReset, State.buffer, State.reset, Rmn.reset]

theorem pinReset_tracker (k : Fin 8) : (pinReset p s).tracker k = .reset := by
  simp [pinReset, State.tracker, State.reset, Rmn.reset]

theorem pinReset_entry (i : Fin 256) : (pinReset p s).entry i = .reset := by
  simp [pinReset, State.entry, State.reset, Tdr.reset]

theorem pinReset_attach (c : Fin 16) : (pinReset p s).tdr.attach[c] = 0 := by
  simp [pinReset, State.reset, Tdr.reset]

theorem pinReset_crane (k : Fin 32) : (pinReset p s).crane k = .reset := by
  simp [pinReset, State.crane, State.reset]

theorem pinReset_reefer (i : Fin 2048) : (pinReset p s).reefer i = .reset := by
  simp [pinReset, State.reefer, State.reset, Rfm.reset]

theorem pinReset_bin (b : Fin 64) : (pinReset p s).bin b = .reset := by
  simp [pinReset, State.bin, State.reset, Cvm.reset]

theorem pinReset_cell (b : Fin 64) (i : Fin 16) : ((pinReset p s).bin b).cells[i] = .reset := by
  simp [pinReset_bin, Bin.reset]

end

/-- Settles O3: every table stands at its reset value at each place. -/
theorem pinResetReturnsEveryBlock : Obligations.PinResetReturnsEveryBlock := by
  intro p s
  refine ⟨pinReset p s, rfl, rfl, rfl, rfl, fun r => ?slots, rfl, rfl, rfl, rfl, rfl, rfl, rfl, rfl, fun r => ?rings,
    fun b => ?buffers, rfl, rfl, rfl, fun k => ?trackers, fun i => ?entries, pinReset_attach p s, fun k => ?cranes,
    fun i => ?reefers, rfl, rfl, rfl, fun b => ?bins, rfl, rfl, rfl, rfl, rfl, rfl, rfl, rfl, rfl, rfl, rfl, rfl, rfl, rfl,
    rfl, rfl, rfl, rfl, rfl, rfl, rfl⟩
  case slots =>
    rw [pinReset_slot]
    exact ⟨rfl, rfl, rfl, pinReset_shadows p s r⟩
  case rings =>
    rw [pinReset_ring]
    exact ⟨rfl, rfl, rfl, rfl, rfl, rfl⟩
  case buffers => rw [pinReset_buffer]; rfl
  case trackers => rw [pinReset_tracker]; rfl
  case entries => rw [pinReset_entry]; rfl
  case cranes => rw [pinReset_crane]; exact ⟨rfl, rfl⟩
  case reefers => rw [pinReset_reefer]; rfl
  case bins =>
    refine ⟨by rw [pinReset_bin]; rfl, by rw [pinReset_bin]; rfl, fun i => ?_⟩
    rw [pinReset_cell]
    exact ⟨rfl, rfl, rfl⟩

/-- Settles O4: both pins' commands are due in reset, and nothing waits that could join. -/
theorem strapsAreSampledAtRelease : Obligations.StrapsAreSampledAtRelease := by
  intro ca s quiet
  have step (body : State → State) (same : (body s).lif.injWaiting = s.lif.injWaiting) :
      stepWhen s.pins.inReset body s = if s.pins.inReset then body s else s := by
    cases s.pins.inReset
    · rfl
    · exact settle_idle _ (same.trans quiet)
  exact ⟨congrArg Host.Outcome.next (step (releaseReset ca) rfl), congrArg Host.Outcome.next (step _ rfl)⟩

/-- `o` leads nowhere but to `s`. -/
def Stays (s : State) (o : Host.Outcome State Fault Refusal) : Prop := ∀ t, o = .next t → t = s

/-- A step that is not due changes nothing. -/
theorem stays_stepWhen {due : Bool} {body : State → State} {s : State} (off : due = false) :
    Stays s (.next (stepWhen due body s)) := by
  rintro t ⟨⟩
  rw [off]
  rfl

/-- Settles O5: in reset no step but those of the pins is due. -/
theorem inResetOnlyThePinsAct : Obligations.InResetOnlyThePinsAct := by
  intro c s t reset noReset noRelease noPol
  have command {k : CommandKind} {enabled : Bool} {body : Record → State → State × Status} :
      Stays s (takeCommand k enabled body s) := stays_stepWhen (by simp [State.commandDue, reset])
  have link {ill : Bool} {body : State → State} :
      Stays s (if ill then .refused .illFormed else .next (stepWhen s.acceptsNow body s)) := by
    split
    · exact fun t refused => nomatch refused
    · exact stays_stepWhen (by simp [State.acceptsNow, reset])
  have memory {body : State → State} : Stays s (.next (stepWhen (!s.pins.inReset) body s)) :=
    stays_stepWhen (by simp [reset])
  have visit {p : SweepPhase} {b : Block} : s.visitDue p b = false := by simp [State.visitDue, reset]
  suffices stays : Stays s (exec c s) from stays t
  cases c with
  | pinReset p => exact absurd rfl (noReset p)
  | resetRelease ca => exact absurd rfl (noRelease ca)
  | attnPolChangeInReset => exact absurd rfl noPol
  | ulinkWrite | ulinkRead => exact link
  | dlinkGrant | forwardResponse | injectedWriteAnswer | injectedReadAnswer => exact memory
  | ringDisableComplete r => exact stays_stepWhen (by simp [reset])
  | slotCommit r => exact stays_stepWhen (by simp [State.slotCommitDue, reset])
  | downlinkSlotCommit r => exact stays_stepWhen (by simp [State.downlinkCommitDue, reset])
  | dispatchFrame => exact stays_stepWhen (by simp [State.frameDue, reset])
  | deadlineExpiry k => exact stays_stepWhen (by simp [State.deadlineDue, reset])
  | nop | unknownCommand | setTime | adjustTime | sweepNow | registerTerminal | deregisterTerminal | bindCrane | unbindCrane
  | forceHold | releaseHold | addReefer | clearDose | retireReefer | resetBin => exact command
  | snapshotCoverage => exact stays_stepWhen (by simp [State.commandDue, reset])
  | snapshotRow => exact stays_stepWhen (by simp [State.rowDue, reset])
  | sweepPeriodExpiry => exact stays_stepWhen (by simp [State.periodDue, reset])
  | sweepInEdge => exact stays_stepWhen (by simp [reset])
  | directoryAgingVisit | gridAgingVisit => exact stays_stepWhen visit
  | reeferVisit | refreshSection => exact stays_stepWhen (by rw [visit, Bool.false_and])
  | digestDrainStep => exact stays_stepWhen (by simp [State.drainDue, reset])
  | eventTake b => exact stays_stepWhen (by simp [State.eventDue, reset])
  | areaInitialisation => exact stays_stepWhen (by simp [State.initDue, reset])
  | suspendDrained => exact stays_stepWhen (by simp [State.drained, reset])

/-! ## Reads and the arbiter (R1, R5, R16 to R18) -/

/-- Settles O13. -/
theorem readIsForwarded : Obligations.ReadIsForwarded := by
  intro x addr n s released place quiet aligned burst
  have shape : burstShape addr n = true := by simp [burstShape, aligned, burst]
  have accepts : s.acceptsNow = true := by simp [State.acceptsNow, released, Config.forwardDepth, place]
  change execUlinkRead x addr n s = _
  simp only [execUlinkRead, shape, accepts]
  exact congrArg Host.Outcome.next (settle_idle _ quiet)

/-- Out of reset the arbiter decides (R17). -/
theorem exec_dlinkGrant {s : State} (released : s.pins.inReset = false) :
    exec .dlinkGrant s = .next (settle (arbitrate s)) := by
  change Host.Outcome.next (stepWhen (!s.pins.inReset) arbitrate s) = _
  rw [released]
  rfl

/-- Whether the head of the injection queue can be issued (R17). -/
theorem issuable_cons {s : State} {d : InjEntry} {e : List InjEntry} (queue : s.lif.injQueue = d :: e) :
    s.issuable = true ↔ d.ordered = false ∨ ∀ q ∈ s.lif.injInFlight, q.isRead = true := by
  simp [State.issuable, queue]

/-- With no request waiting a place that is freed stays free. -/
theorem fillPlace_quiet {s : State} (quiet : s.lif.injWaiting = []) : fillPlace s = s := by
  simp [fillPlace, quiet]

/-- The request that waits longest takes the place that is freed, and the block's others go behind those of the other blocks
(R16; log 8). -/
theorem fillPlace_cons {s : State} {b : Block} {op : InjOp} {rest : List (Block × InjOp)}
    (waiting : s.lif.injWaiting = (b, op) :: rest) :
    fillPlace s = rotateWaiting b (joinOp b op (s.onLif fun l => { l with injWaiting := rest })) := by
  simp [fillPlace, waiting]

theorem settle_arbitrate_forward {s : State} (count : Nat) (quiet : s.lif.injWaiting = []) :
    settle (grantForward count s) = grantForward count s := settle_idle _ quiet

theorem settle_arbitrate_injection {s : State} (quiet : s.lif.injWaiting = []) :
    settle (grantInjection s) = s.onLif fun l => { l with
      injQueue := l.injQueue.drop 1, injInFlight := l.injInFlight ++ l.injQueue.take 1, arbCount := 0 } := by
  rw [grantInjection, fillPlace_quiet (by exact quiet)]
  exact settle_idle _ quiet

/-- Settles O14. -/
theorem arbiterSharesTheDlink : Obligations.ArbiterSharesTheDlink := by
  constructor
  · intro s f e a d released quiet issuable grantF grantI
    have grantsF (c : Nat) (path : s.lif.forwardPath = a :: f) : settle (grantForward c s) = grantF c := by
      rw [settle_arbitrate_forward c quiet]
      simp [grantForward, State.onLif, path, grantF]
    have grantsI (queue : s.lif.injQueue = d :: e) : settle (grantInjection s) = grantI := by
      rw [settle_arbitrate_injection quiet]
      simp [State.onLif, queue, grantI]
    refine ⟨fun path queue can low => ?_, fun path queue can high => ?_, fun path queue can => ?_, fun path cannot => ?_⟩
    · rw [exec_dlinkGrant released, ← grantsF _ path]
      simp [arbitrate, path, (issuable_cons queue).mpr can, low]
    · rw [exec_dlinkGrant released, ← grantsI queue]
      simp [arbitrate, path, (issuable_cons queue).mpr can, Nat.not_lt.mpr high]
    · rw [exec_dlinkGrant released, ← grantsI queue]
      simp [arbitrate, path, (issuable_cons queue).mpr can]
    · have no : s.issuable = false := by
        rcases cannot with ⟨queue, cannot⟩ | empty
        · exact Bool.eq_false_iff.mpr (mt (issuable_cons queue).mp cannot)
        · simp [State.issuable, empty]
      rw [exec_dlinkGrant released, ← grantsF _ path]
      simp [arbitrate, path, no]
  · intro s e d b op rest released path queue full unordered waiting taken
    have depth : Config.injectionDepth = 16 := rfl
    let u : State := s.onLif fun l => { l with
      injQueue := e, injInFlight := s.lif.injInFlight ++ [d], arbCount := 0, injWaiting := rest }
    have length : e.length = 15 := by simpa [queue] using full
    have grants : exec .dlinkGrant s = .next (rotateWaiting b (joinOp b op u)) := by
      have can : s.issuable = true := (issuable_cons queue).mpr (.inl unordered)
      have decided : arbitrate s = grantInjection s := by simp [arbitrate, path, can]
      have taken : grantInjection s = rotateWaiting b (joinOp b op u) := by
        rw [grantInjection, fillPlace_cons (by exact waiting)]
        simp [State.onLif, queue, u]
      rw [exec_dlinkGrant released, decided, taken, settle_full]
      simp [rotateWaiting, joinOp_length, u, length, depth]
    rw [grants]
    refine ⟨fun r ring rmn => ?_, fun n low row cvm => ?_, fun closing cvm executing none => ?_⟩
    · subst ring rmn
      rfl
    · subst row cvm
      have copied : joinOp .cvm (.snapRow n) u = rowCopied n (u.join _) := rfl
      rw [copied, rowCopied, if_neg (by intro top; rw [top] at low; exact absurd low (by decide))]
      rfl
    · subst closing cvm
      let v := injected (areaEntry .cvm 0x8020 (beatsOf (leBytes 4 s.cvm.gen.toNat)) true s) u
      have closes : joinOp .cvm .snapClosing u = completeCommand (if s.cvm.outcome = .done then .done else .partialDone) v :=
        rfl
      rw [closes, completeCommand_silent _ v executing none]
      rfl

/-! ## Memory's answers (R2, R9, R11, R17, R19, R20) -/

/-- Some element of a table has a property. -/
theorem exists_mem_toList_iff {α : Type} {n : Nat} (v : Vector α n) (p : α → Prop) :
    (∃ x ∈ v.toList, p x) ↔ ∃ i : Fin n, p v[i] := by
  simp only [Vector.mem_toList_iff, Vector.mem_iff_getElem]
  constructor
  · rintro ⟨_, ⟨i, hi, rfl⟩, holds⟩
    exact ⟨⟨i, hi⟩, holds⟩
  · rintro ⟨i, holds⟩
    exact ⟨_, ⟨i, i.isLt, rfl⟩, holds⟩

/-- A part of a held transaction is still out (R9). -/
theorem heldOpen_iff (s : State) (id : Nat) : s.heldOpen id = true ↔
    (∃ r, id ∈ (s.slot r).withheld ∨ id ∈ (s.slot r).joined) ∨ (∃ t ∈ s.lif.forwardPath, id ∈ t.held) ∨
      ∃ t ∈ s.lif.fwdInFlight, id ∈ t.held := by
  simp only [State.heldOpen, Bool.or_eq_true, List.any_eq_true, List.contains_iff_mem, exists_mem_toList_iff, or_assoc]
  rfl

/-- The held transactions after an answer to a part of transaction `id` (R9, R19). -/
def errMarked (ok : Bool) (id : Nat) (l : List HeldTxn) : List HeldTxn :=
  l.map fun h => if h.id = id then { h with err := h.err || !ok } else h

/-- The mark leaves the other transactions. -/
theorem filter_errMarked (ok : Bool) (id : Nat) (l : List HeldTxn) :
    (errMarked ok id l).filter (fun h => h.id != id) = l.filter fun h => h.id != id := by
  induction l with
  | nil => rfl
  | cons h l ih =>
    by_cases same : h.id = id
    · simpa [errMarked, same] using ih
    · simpa [errMarked, same] using ih

/-- The mark stays on the transaction marked. -/
theorem find?_errMarked (ok : Bool) {id : Nat} {l : List HeldTxn} {h : HeldTxn}
    (found : (l.find? fun h => h.id == id) = some h) :
    ((errMarked ok id l).find? fun h => h.id == id) = some { h with err := h.err || !ok } := by
  have test : ((fun h : HeldTxn => h.id == id) ∘ fun h : HeldTxn => if h.id = id then { h with err := h.err || !ok } else h) =
      fun h => h.id == id := by
    funext h
    by_cases same : h.id = id <;> simp [same]
  have named : h.id = id := by simpa using List.find?_some found
  rw [errMarked, List.find?_map, test, found]
  simp [named]

/-- Settles O15: an answer to a part of a held write leads to a response once no part is out. -/
theorem memoryAnswerReachesTheInitiator : Obligations.MemoryAnswerReachesTheInitiator := by
  intro i ok data s q released quiet answered burst rest
  let u : State := s.onLif fun l => { l with fwdInFlight := rest }
  have answers : forwardResponse i ok data s = forwardAnswer q ok data u := by
    rw [forwardResponse, answered]
    exact if_neg fun bad => bad.2 (burst bad.1)
  have leads (t : State) (result : forwardAnswer q ok data u = t) (still : t.lif.injWaiting = s.lif.injWaiting) :
      exec (.forwardResponse i ok data) s = .next t := by
    change Host.Outcome.next (stepWhen (!s.pins.inReset) (forwardResponse i ok data) s) = _
    rw [released, Bool.not_false, stepWhen_true, answers, result, settle_idle t (still.trans quiet)]
  refine ⟨fun direct => leads _ (if_pos direct) rfl, fun id split one => ?_⟩
  let marked : State := u.onLif fun l => { l with heldTxns := errMarked ok id l.heldTxns }
  have part : forwardAnswer q ok data u = answerHeld ok id u := by
    rw [forwardAnswer, if_neg (by simp [split]), one]
    rfl
  constructor
  · exact fun out => leads _ (part.trans (if_pos ((heldOpen_iff marked id).mpr out))) rfl
  · intro closed h held
    refine leads _ (part.trans ((if_neg (mt (heldOpen_iff marked id).mp closed)).trans ?_)) rfl
    have found : (marked.lif.heldTxns.find? fun h => h.id == id) = some { h with err := h.err || !ok } :=
      find?_errMarked ok held
    have others : marked.lif.heldTxns.filter (fun h => h.id != id) = s.lif.heldTxns.filter fun h => h.id != id :=
      filter_errMarked ok id s.lif.heldTxns
    change (match marked.lif.heldTxns.find? fun h => h.id == id with
      | none => marked
      | some h => (marked.onLif fun l => { l with heldTxns := l.heldTxns.filter fun h => h.id != id }).respond
          h.initiator (!h.err) []) = _
    rw [found]
    simp only [State.respond, State.onLif, others]
    rfl

end Sys2Proof.Machine
end

section
/-! # Memory's answers to injected transactions, and the ends of ENABLING and DISABLING (R17, R20, R27, R28, R38, R40, R171,
R181, R189) -/

namespace Sys2Proof.Machine

open Sys2Proof.Claims

/-- MEMORY_ERROR of an injected transaction answered ERROR, but for the event-ring mark (R20). -/
def errorEvents (ok : Bool) (e : InjEntry) : List EventReq :=
  if ok || e.eventMark then [] else [event .lif .memoryError .block (blockCode e.block) e.addr.toNat 0 0]

theorem memoryError_raised (ok : Bool) (e : InjEntry) (s : State) : memoryError ok e s = raised (errorEvents ok e) s := by
  unfold memoryError errorEvents
  cases ok <;> cases e.eventMark <;> simp [raised_nil, raise_eq_raised]

/-- `s` with the `i`-th unanswered injected transaction answered. -/
def answered (i : Nat) (s : State) : State := { s with lif := { s.lif with injInFlight := s.lif.injInFlight.eraseIdx i } }

section
variable {i : Nat} {ok : Bool} {s t : State} {e : InjEntry} (released : s.pins.inReset = false)
  (flying : s.lif.injInFlight[i]? = some e)
include released flying

/-- The answer to a write is handed to the block that requested it (R17, R20). -/
theorem exec_injectedWriteAnswer (write : e.isRead = false)
    (result : writeAnswered e.tag (raised (errorEvents ok e) (answered i s)) = t) :
    exec (.injectedWriteAnswer i ok) s = .next (settle t) := by
  have body : injectedWriteAnswer i ok s = writeAnswered e.tag (memoryError ok e (answered i s)) := by
    rw [injectedWriteAnswer, flying]
    exact if_neg (by simp [write])
  change Host.Outcome.next (stepWhen (!s.pins.inReset) (injectedWriteAnswer i ok) s) = _
  rw [released, Bool.not_false, stepWhen_true, body, memoryError_raised, result]

/-- The data of a read are handed to the block that requested it; an ERROR answer gives zero bytes (R17, R20). -/
theorem exec_injectedReadAnswer {data : BitVec 128} (read : e.isRead = true)
    (result : readAnswered e.tag (if ok then data else 0) (raised (errorEvents ok e) (answered i s)) = t) :
    exec (.injectedReadAnswer i ok data) s = .next (settle t) := by
  have body : injectedReadAnswer i ok data s =
      readAnswered e.tag (if ok then data else 0) (memoryError ok e (answered i s)) := by
    rw [injectedReadAnswer, flying]
    exact if_pos read
  change Host.Outcome.next (stepWhen (!s.pins.inReset) (injectedReadAnswer i ok data) s) = _
  rw [released, Bool.not_false, stepWhen_true, body, memoryError_raised, result]

end

theorem errorEvents_ok (e : InjEntry) : errorEvents true e = [] := rfl

/-! ## Receipts (R38, R40) -/

/-- The answer to a receipt of the ring's present enabling lowers the outstanding count (R38; log 15). -/
theorem receiptAnswered_present (r : Fin 16) (s : State) : receiptAnswered r (s.ring r).gen s =
    checkComplete r (withRing r { s.ring r with outstanding := (s.ring r).outstanding - 1 } s) := by
  rw [receiptAnswered, if_pos rfl]
  rfl

@[simp] theorem withRing_ring (r : Fin 16) (g : Ring) (s : State) : (withRing r g s).ring r = g :=
  s.onRing_ring r fun _ => g

theorem withRing_ring_ne {r q : Fin 16} (g : Ring) (s : State) (other : q ≠ r) : (withRing r g s).ring q = s.ring q :=
  s.onRing_ring_ne r q (fun _ => g) other

theorem withRing_withRing (r : Fin 16) (g g' : Ring) (s : State) : withRing r g' (withRing r g s) = withRing r g' s := by
  simp [withRing]

/-- Settles O16. -/
theorem receiptAnswerCountsDown : Obligations.ReceiptAnswerCountsDown := by
  intro i s e r released quiet flying write tag unfinished
  rw [exec_injectedWriteAnswer released flying write rfl, errorEvents_ok, raised_nil, tag]
  have counts : writeAnswered (.receipt r (s.ring r).gen) (answered i s) =
      withRing r { s.ring r with outstanding := (s.ring r).outstanding - 1 } (answered i s) := by
    refine (receiptAnswered_present r (answered i s)).trans (checkComplete_open r _ fun c hc => ?_)
    rw [withRing_ring] at hc ⊢
    rcases unfinished c hc with short | many
    · exact .inl short
    · exact .inr (show (s.ring r).outstanding - 1 ≠ 0 by omega)
  rw [counts]
  exact congrArg Host.Outcome.next (settle_idle _ quiet)

/-- A slot with no other that holds the same word releases its write itself (R8). -/
theorem sharing_none {s : State} {r : Fin 16}
    (alone : ∀ q, q ≠ r → (s.ring q).desc.prodAddr = (s.ring r).desc.prodAddr → (s.slot q).status = .empty) :
    s.sharing r = none := by
  refine List.find?_eq_none.mpr fun q _ => ?_
  by_cases other : q = r
  · simp [other]
  · by_cases shares : (s.ring q).desc.prodAddr = (s.ring r).desc.prodAddr
    · simp [alone q other shares]
    · simp [shares]

/-- Settles O17. -/
theorem lastReceiptReleasesTheHeldWrite : Obligations.LastReceiptReleasesTheHeldWrite := by
  intro i s e r released quiet flying write tag last commit committing whole target alone
  let g : Ring := { s.ring r with outstanding := 0, commit := none }
  let u := withRing r { s.ring r with outstanding := 0 } (answered i s)
  let v := withRing r g (answered i s)
  have lowered : (s.ring r).outstanding - 1 = 0 := by omega
  have counts : writeAnswered (.receipt r (s.ring r).gen) (answered i s) = checkComplete r u := by
    refine (receiptAnswered_present r (answered i s)).trans ?_
    change checkComplete r (withRing r { s.ring r with outstanding := (s.ring r).outstanding - 1 } (answered i s)) = _
    rw [lowered]
  have ring : u.ring r = { s.ring r with outstanding := 0 } := withRing_ring ..
  have completes : checkComplete r u = releaseAfterCommit r v := by
    rw [checkComplete_done r u { target := (s.ring r).prod, byRequest := true } (by rw [ring]; exact commit)
      (by rw [ring]) (by rw [ring])]
    refine (if_pos rfl).trans (congrArg (releaseAfterCommit r) ?_)
    change withRing r { u.ring r with commit := none } u = v
    rw [ring]
    exact withRing_withRing ..
  have released_ : releaseAfterCommit r v = releaseSlot r (wordBytes (s.ring r).prod) v := by
    have slot : v.slot r = s.slot r := rfl
    simp only [releaseAfterCommit, slot, committing, whole, target]
    rfl
  have only : v.sharing r = none := by
    refine sharing_none fun q other shares => alone q other ?_
    have same : v.ring q = s.ring q := withRing_ring_ne _ _ other
    rw [same, show v.ring r = g from withRing_ring ..] at shares
    exact shares
  have write_ : releasedWrite r (wordBytes (s.ring r).prod) v =
      { initiator := (s.slot r).lastInit
        addr := BitVec.ofNat 32 ((s.ring r).desc.prodAddr / 16 * 16)
        isRead := false
        burst := 1
        beats := [beatAt ((s.ring r).desc.prodAddr % 16) (wordBytes (s.ring r).prod)]
        direct := false
        held := (s.slot r).withheld ++ (s.slot r).joined } := by
    have ring : v.ring r = g := withRing_ring ..
    rw [releasedWrite, ring]
    rfl
  rw [exec_injectedWriteAnswer released flying write rfl, errorEvents_ok, raised_nil, tag, counts, completes, released_,
    releaseSlot_alone r _ v only, write_]
  exact congrArg Host.Outcome.next (settle_idle _ quiet)

/-! ## Status writes, sections and index reads (R20, R171, R181, R189) -/

/-- Settles O18. -/
theorem writeAnswersPublish : Obligations.WriteAnswersPublish := by
  intro i ok s e flying write ready err u
  have answers {t : State} (result : writeAnswered e.tag u = t) :
      exec (.injectedWriteAnswer i ok) s = .next (settle t) :=
    exec_injectedWriteAnswer ready.released flying write result
  refine ⟨fun status => ?status, fun E D section_ => ?published, fun plain => ?plain⟩
  case status =>
    let d : State := u.onRpw fun r => { r with done := r.done + 1 }
    have requests : writeAnswered e.tag u = d.ask .rpw .doneIndices := by rw [status]; rfl
    have joins : joinOp .rpw .doneIndices d = (injected (indicesEntry false d) d).onRpw
        fun r => { r with exec := .idle, result := none } := rfl
    rw [answers requests, settle_ask (s := d) ready.quiet ready.room, joins]
    exact congrArg Host.Outcome.next (settle_idle _ ready.quiet)
  case published =>
    rw [answers (by rw [section_])]
    exact congrArg Host.Outcome.next (settle_idle _ ready.quiet)
  case plain =>
    rw [answers (by rw [plain])]
    exact congrArg Host.Outcome.next (settle_idle _ ready.quiet)

/-- Settles O19. -/
theorem indexReadKeepsItsWord : Obligations.IndexReadKeepsItsWord := by
  intro i data s e w released quiet flying read unmarked tag u
  have inBeat : 4 * w.val % 16 = 4 * w.val := Nat.mod_eq_of_lt (by omega)
  have word (d : BitVec 128) : wordOfBeat (4 * w.val) d = d.extractLsb' (32 * w.val) 32 := by
    rw [wordOfBeat, inBeat, show 8 * (4 * w.val) = 32 * w.val by omega]
  have keeps (ok : Bool) : exec (.injectedReadAnswer i ok data) s = .next
      (raised (errorEvents ok e) (u ((if ok then data else 0).extractLsb' (32 * w.val) 32))) := by
    rw [exec_injectedReadAnswer released flying read rfl, tag, settle_idle _ (by exact quiet), ← word]
    rfl
  constructor
  · rw [keeps, errorEvents_ok, raised_nil]
    rfl
  · rw [keeps]
    simp [errorEvents, unmarked]

/-! ## The ends of ENABLING and DISABLING (R27, R28, R177) -/

/-- A ring that takes another state has its record written at once (R177). -/
theorem settle_setRingState {s : State} {r : Fin 16} {st : RingState} (changes : (s.ring r).state ≠ st)
    (quiet : s.lif.injWaiting = []) (room : s.lif.injQueue.length < Config.injectionDepth) :
    settle (setRingState r st s) =
      injected (ringEntry r { s.ring r with state := st } s) (withRing r { s.ring r with state := st } s) := by
  have asks : setRingState r st s = (withRing r { s.ring r with state := st } s).ask .rmn (.ringRecord r) :=
    if_neg changes
  have joins : joinOp .rmn (.ringRecord r) (withRing r { s.ring r with state := st } s) =
      injected (ringEntry r ((withRing r { s.ring r with state := st } s).ring r) s)
        (withRing r { s.ring r with state := st } s) := rfl
  rw [asks, settle_ask (s := withRing r _ s) quiet room, joins, withRing_ring]
  exact settle_idle _ quiet

/-- A slot that holds nothing has nothing to release (R12). -/
theorem releaseWithoutCommit_empty {s : State} {r : Fin 16} (empty : (s.slot r).status = .empty) :
    releaseWithoutCommit r s = s := if_pos empty

/-- A ring that reaches ENABLED with an EMPTY slot has nothing kept to treat (R27). -/
theorem handKept_empty {s : State} {r : Fin 16} (empty : s.slot r = .empty) : handKept r s = s := by
  have release : releaseWithoutCommit r s = s := releaseWithoutCommit_empty (by rw [empty]; rfl)
  simp only [handKept, empty, release]
  split <;> rfl

/-- The consumer word's answer completes a baseline whose producer word is read (R27). -/
theorem baselineAnswer_consumer {r : Fin 16} {s : State} {p : Word} (data : BitVec 128) (running : s.ccu.part = .running)
    (enabling : (s.ring r).state = .enabling) (base : (s.ring r).baseP = some p) :
    baselineAnswer r (s.ring r).gen true data s = takeBaseline r p (wordOfBeat (s.ring r).desc.consAddr data)
      (withRing r { s.ring r with baseC := some (wordOfBeat (s.ring r).desc.consAddr data) } s) := by
  let u := withRing r { s.ring r with baseC := some (wordOfBeat (s.ring r).desc.consAddr data) } s
  have ring : u.ring r = { s.ring r with baseC := some (wordOfBeat (s.ring r).desc.consAddr data) } := withRing_ring ..
  have taken : baselineAnswer r (s.ring r).gen true data s = match (u.ring r).baseP, (u.ring r).baseC with
      | some p, some c => takeBaseline r p c u
      | _, _ => u := if_pos ⟨enabling, rfl, by simp [State.running, running]⟩
  have words : (u.ring r).baseP = some p ∧ (u.ring r).baseC = some (wordOfBeat (s.ring r).desc.consAddr data) := by
    rw [ring]
    exact ⟨base, rfl⟩
  rw [taken, words.1, words.2]

/-- A baseline of a ring that kept no value, whose words lie within the slot count of each other (R27). -/
theorem takeBaseline_fits {r : Fin 16} {s : State} {p c : Word} (kept : (s.ring r).keptC = none)
    (fits : (p - c).toNat ≤ (s.ring r).desc.slotCount) :
    takeBaseline r p c s = handKept r (setRingState r .enabled (withRing r { s.ring r with
      prod := p, cons := c, above := decide ((s.ring r).desc.high ≤ (p - c).toNat) } s)) := by
  have good : decide ((p - c).toNat > (s.ring r).desc.slotCount) = false := decide_eq_false (Nat.not_lt.mpr fits)
  have word : (s.ring r).keptC.getD c = c := by
    rw [kept]
    rfl
  unfold takeBaseline
  simp only [word, good]
  rfl

theorem setRingState_slot (r q : Fin 16) (st : RingState) (s : State) : (setRingState r st s).slot q = s.slot q := by
  unfold setRingState
  simp only
  split <;> rfl

/-- Settles O20: with nothing kept the words read are P and C, and the ring goes to ENABLED. -/
theorem baselineEnablesTheRing : Obligations.BaselineEnablesTheRing := by
  intro i data s e r p ready flying read tag running enabling base kept empty c fits
  let b := withRing r { s.ring r with baseC := some c } (answered i s)
  let g : Ring := { s.ring r with
    baseC := some c, prod := p, cons := c, above := decide ((s.ring r).desc.high ≤ (p - c).toNat) }
  let u := withRing r g (answered i s)
  have based : readAnswered (.baseline r (s.ring r).gen true) data (answered i s) = takeBaseline r p c b :=
    baselineAnswer_consumer (s := answered i s) data running enabling base
  have ring : b.ring r = { s.ring r with baseC := some c } := withRing_ring ..
  have taken : takeBaseline r p c b = handKept r (setRingState r .enabled u) := by
    rw [takeBaseline_fits (by rw [ring]; exact kept) (by rw [ring]; exact fits), ring]
    exact congrArg (fun v => handKept r (setRingState r .enabled v)) (withRing_withRing ..)
  have nothing : handKept r (setRingState r .enabled u) = setRingState r .enabled u :=
    handKept_empty ((setRingState_slot ..).trans empty)
  have record : u.ring r = g := withRing_ring ..
  have changes : (u.ring r).state ≠ .enabled := by
    rw [record]
    exact enabling.trans_ne (by decide)
  have enables := exec_injectedReadAnswer (ok := true) (data := data) ready.released flying read rfl
  rw [errorEvents_ok, raised_nil, tag, if_pos rfl, based, taken, nothing,
    settle_setRingState changes ready.quiet ready.room, record] at enables
  have twice : withRing r { g with state := .enabled } u = withRing r { g with state := .enabled } (answered i s) :=
    withRing_withRing ..
  rw [twice] at enables
  refine ⟨_, enables, ?_, rfl, rfl, rfl, ?_⟩
  · exact ⟨rfl, rfl, nofun, nofun, fun _ => rfl, fun _ => rfl, fun _ => rfl, fun _ => rfl, fun _ => rfl, fun _ => rfl,
      fun _ => rfl⟩
  · have last : (injected (ringEntry r { g with state := .enabled } u)
        (withRing r { g with state := .enabled } (answered i s))).ring r = { g with state := .enabled } := withRing_ring ..
    rw [last]
    rfl

/-! ## Disabling -/

/-- A ring whose slots are cleared keeps the rest of its record. -/
theorem clearSlots_ring (r : Fin 16) (s : State) : (clearSlots r s).ring r = { s.ring r with slotMap := [] } := by
  rw [clearSlots, State.onRing_ring]
  rfl

theorem clearSlots_ring_ne {r q : Fin 16} (s : State) (other : q ≠ r) : (clearSlots r s).ring q = s.ring q := by
  rw [clearSlots, State.onRing_ring_ne _ _ _ _ other]
  rfl

/-- No buffer is FILLING for a ring whose slots are cleared (R28). -/
theorem clearSlots_buffer (r : Fin 16) (s : State) (b : Fin 64) (sl : Nat) (j : Word) :
    ((clearSlots r s).buffer b).st ≠ .filling r sl j := by
  have freed : (clearSlots r s).buffer b = if fillingFor r (s.buffer b) then { s.buffer b with st := .free } else s.buffer b :=
    Vector.getElem_map _ b.isLt
  rw [freed]
  split
  · exact nofun
  · next keeps =>
    intro filling
    simp [fillingFor, filling] at keeps

/-- The trackers of a ring whose slots are cleared are FREE (R99). -/
theorem clearSlots_tracker {r : Fin 16} {s : State} {k : Fin 8} (of : (s.tracker k).ring = r) :
    ((clearSlots r s).tracker k).st = .free := by
  have freed : (clearSlots r s).tracker k =
      if (s.tracker k).ring = r then { s.tracker k with st := .free } else s.tracker k := Vector.getElem_map _ k.isLt
  rw [freed, if_pos of]

theorem closeWindows_shadows (r : Fin 16) (s : State) :
    (closeWindows r s).lif.prodShadow[r] = [] ∧ (closeWindows r s).lif.consShadow[r] = [] :=
  ⟨upd_self .., upd_self ..⟩

/-- Clearing a ring's slots and closing its windows stays within the link interface and the ring monitor. -/
theorem sameBut_closed (r : Fin 16) (g : Ring) (e : InjEntry) (s : State) :
    SameBut true true false false false false false false false s
      (injected e (withRing r g (closeWindows r (clearSlots r s)))) := by
  simp [SameBut, injected, withRing, closeWindows, clearSlots, setMidway, freeRingTrackers, freeRingBuffers]

/-- Settles O21: with nothing held the slots are cleared, the windows closed, and the ring's record is written. -/
theorem disablingEnds : Obligations.DisablingEnds := by
  intro r s ready disabling open_ none answered off empty
  let u := closeWindows r (clearSlots r s)
  have ring : u.ring r = { s.ring r with slotMap := [] } := clearSlots_ring r s
  have changes : (u.ring r).state ≠ .disabled := by
    rw [ring]
    exact disabling.trans_ne (by decide)
  have ends : finishDisabling r s = setRingState r .disabled u := by
    have nothing : releaseWithoutCommit r (clearSlots r s) = clearSlots r s :=
      releaseWithoutCommit_empty (show (s.slot r).status = .empty by rw [empty]; rfl)
    rw [finishDisabling, nothing]
    exact if_neg (by rw [ring, off]; exact Bool.false_ne_true)
  have due : (!s.pins.inReset && s.disableDone r && !s.blocked .rmn) = true := by
    simp [ready.released, State.disableDone, disabling, open_, none, answered, (blocked_quiet s .rmn ready.quiet).2.2]
  have leads : exec (.ringDisableComplete r) s = .next
      (injected (ringEntry r { u.ring r with state := .disabled } u) (withRing r { u.ring r with state := .disabled } u)) := by
    change Host.Outcome.next (stepWhen _ _ _) = _
    rw [due, stepWhen_true, ends, settle_setRingState changes ready.quiet ready.room]
  refine ⟨_, leads, ?_, ?_, ?_, ?_, ?_, ?_, ?_, ?_, rfl, rfl, ?_⟩
  · exact sameBut_closed r _ _ s
  · refine (withRing_ring ..).trans ?_
    rw [ring]
  · exact fun q other => (withRing_ring_ne _ _ other).trans (clearSlots_ring_ne s other)
  · exact clearSlots_buffer r s
  · intro k of
    have freed : ((clearSlots r s).tracker k).st = .free := clearSlots_tracker of
    exact freed
  · exact empty
  · exact (closeWindows_shadows r (clearSlots r s)).1
  · exact (closeWindows_shadows r (clearSlots r s)).2
  · have last : (injected (ringEntry r { u.ring r with state := .disabled } u)
        (withRing r { u.ring r with state := .disabled } u)).ring r = { u.ring r with state := .disabled } := withRing_ring ..
    rw [last]
    rfl

end Sys2Proof.Machine
end

section
/-! # The sweep: triggers and visits (08_clocks_and_the_sweep.md, R157 to R161) -/

namespace Sys2Proof.Machine

open Sys2Proof.Claims

/-! ## Triggers (R157, R158) -/

/-- What a trigger leads to, by the state of the part and of the sweep (R158). -/
theorem sweepTrigger_eq (src : TrigSel) (s : State) :
    sweepTrigger src s = match s.ccu.part with
      | .dormant | .initialising => s
      | .running =>
        if s.tbs.sweeping then
          raised [event .tbs .sweepOverrun .part (min (s.tbs.overruns + 1) 4294967295) (trigCode src) (phaseCode s.tbs.phase)
            s.tbs.cursor] { s with tbs := { s.tbs with restart := true, overruns := min (s.tbs.overruns + 1) 4294967295 } }
        else { s with tbs := sweepBegun s }
      | .suspending | .suspended => { s with tbs := { s.tbs with restart := true } } := by
  cases part : s.ccu.part <;> simp only [sweepTrigger, part] <;> rfl

/-- A trigger asks for no place in the injection queue. -/
theorem sweepTrigger_waiting (src : TrigSel) (s : State) : (sweepTrigger src s).lif = s.lif := by
  rcases sweepTrigger_cases src s with ⟨_, h⟩ | ⟨_, _, h⟩ | ⟨_, _, h⟩ | ⟨_, h⟩ <;> rw [h] <;> rfl

/-- Settles O43: both triggers are due, and taken by the table of R158. -/
theorem triggersAreTakenByState : Obligations.TriggersAreTakenByState := by
  intro s e released quiet n taken
  refine ⟨fun countdown expired => ?_, fun pin => ?_, fun other => ?_⟩
  · let u : State := s.onTbs fun t => { t with countdown := some (periodEnd t.latchedPeriod s) }
    have due : s.periodDue = true := by
      simp [State.periodDue, released, (blocked_quiet s .tbs quiet).2.2, countdown, State.now, expired]
    have expires : exec .sweepPeriodExpiry s = .next (sweepTrigger .period u) := by
      change Host.Outcome.next (stepWhen s.periodDue periodExpiry s) = _
      rw [due, stepWhen_true]
      exact congrArg Host.Outcome.next (settle_idle _ ((congrArg Lif.injWaiting (sweepTrigger_waiting .period u)).trans quiet))
    rw [expires, sweepTrigger_eq]
    rfl
  · have due : (!s.pins.inReset && s.tbs.latchedSel == .pin) = true := by simp [released, pin]
    have edge : exec .sweepInEdge s = .next (sweepTrigger .pin s) := by
      change Host.Outcome.next (stepWhen (!s.pins.inReset && s.tbs.latchedSel == .pin) (sweepTrigger .pin) s) = _
      rw [due, stepWhen_true]
      exact congrArg Host.Outcome.next (settle_idle _ ((congrArg Lif.injWaiting (sweepTrigger_waiting .pin s)).trans quiet))
    rw [edge, sweepTrigger_eq]
    rfl
  · have off : (!s.pins.inReset && s.tbs.latchedSel == .pin) = false := by simp [other]
    change Host.Outcome.next (stepWhen (!s.pins.inReset && s.tbs.latchedSel == .pin) (sweepTrigger .pin) s) = _
    rw [off, stepWhen_false]

/-! ## Visits (R160) -/

/-- The requests behind the first `n` take the mark. -/
theorem markEvents_raised (f : EventReq → EventReq) (l : List EventReq) (s : State) :
    markEvents f s.rpw.events.length (raised l s) = raised (l.map f) s := by
  simp [markEvents, raised, State.onRpw]

/-- A visit, none under way, whose effect has settled in `u` with the events `l`: it is over where there are none. -/
theorem settle_visitStep {body : State → State} {s u : State} {l : List EventReq} (idle : s.tbs.visiting = false)
    (settled : settle (markEvents (fun q => { q with ofVisit := true }) s.rpw.events.length (body s)) =
      raised (l.map byVisit) u) (events : u.rpw.events = s.rpw.events) (quiet : u.lif.injWaiting = []) :
    settle (visitStep body s) = if l = [] then advanceSweep u else visitRaised l u := by
  have free : (raised (l.map byVisit) u).waits .rpw = false := (blocked_quiet (raised (l.map byVisit) u) .rpw quiet).1
  have visit : visitStep body s = if l = [] then advanceSweep u else visitRaised l u := by
    have taken := takeVisit_cases body s
    simp only [settled, free] at taken
    simp only [visitStep, idle]
    cases l with
    | nil =>
      rcases taken with ⟨_, _, moved⟩ | ⟨more, _⟩
      · rw [List.map_nil, raised_nil] at moved
        exact moved
      · simp [raised, events] at more
    | cons q l =>
      rcases taken with ⟨fewer, _⟩ | ⟨_, stays⟩
      · simp [raised, events] at fewer
      · exact stays
  rw [visit]
  split
  · exact settle_idle _ quiet
  · exact settle_idle _ quiet

/-- A visit whose effect is the state `v` with the events `l`. -/
theorem settle_visitStep_raised {body : State → State} {s v : State} {l : List EventReq} (idle : s.tbs.visiting = false)
    (effect : body s = raised l v) (rpw : v.rpw = s.rpw) (quiet : v.lif.injWaiting = []) :
    settle (visitStep body s) = if l = [] then advanceSweep v else visitRaised l v := by
  refine settle_visitStep idle ?_ (congrArg Rpw.events rpw) quiet
  rw [effect, ← rpw, markEvents_raised]
  exact settle_idle _ quiet

/-- A visit that finds nothing to do is passed over. -/
theorem settle_visitStep_passed {body : State → State} {s : State} (idle : s.tbs.visiting = false)
    (nothing : body s = s) (quiet : s.lif.injWaiting = []) : settle (visitStep body s) = advanceSweep s :=
  settle_visitStep_raised (l := []) idle (nothing.trans (raised_nil s).symm) rfl quiet

/-- A visit of a RUNNING sweep is due. -/
theorem visitDue_of_sweeping {p : SweepPhase} {s : State} (h : Sweeping p s) (b : Block) : s.visitDue p b = true := by
  obtain ⟨released, quiet, running, sweeping, phase, refreshing, visiting⟩ := h
  exact (visitDue_iff p b s).mpr ⟨released, sweeping, phase, refreshing, (blocked_quiet s .tbs quiet).2.2,
    (blocked_quiet s b quiet).2.2, .inl ⟨visiting, by simp [State.running, running]⟩⟩

/-- A visit under way can end where its events are taken. -/
theorem visitDue_of_underWay {p : SweepPhase} {s : State} (h : UnderWay p s) (b : Block) :
    s.visitDue p b = true ↔ ∀ q ∈ s.rpw.events, q.ofVisit = false := by
  obtain ⟨released, quiet, sweeping, phase, refreshing, visiting⟩ := h
  have open_ : s.visitOpen = false ↔ ∀ q ∈ s.rpw.events, q.ofVisit = false := by
    simp [State.visitOpen, (blocked_quiet s .rpw quiet).1]
  rw [visitDue_iff, ← open_]
  simp [released, sweeping, phase, refreshing, visiting, (blocked_quiet s .tbs quiet).2.2, (blocked_quiet s b quiet).2.2]

/-- The end of a visit under way moves the cursor (R160; log 37). -/
theorem visitEnds {c : Instr} {p p' : SweepPhase} {b : Block} {n : Nat} {body : State → State} {s : State} (h : UnderWay p s)
    (visit : exec c s = .next (stepWhen (s.visitDue p b) (visitStep body) s))
    (moves : ∀ t : State, t.tbs.phase = s.tbs.phase → t.tbs.cursor = s.tbs.cursor → t.tbs.rangeStart = s.tbs.rangeStart →
      t.tbs.rangeEnd = s.tbs.rangeEnd → advanceSweep t = cursorAt p' n t) : VisitEnds c p' n s := by
  constructor
  · intro taken
    have due : s.visitDue p b = true := (visitDue_of_underWay h b).mpr taken
    have moved : visitStep body s = cursorAt p' n (s.onTbs fun t => { t with visiting := false }) := by
      rw [visitStep, if_pos h.visiting.2]
      exact moves _ rfl rfl rfl rfl
    rw [visit, due, stepWhen_true, moved]
    exact congrArg Host.Outcome.next (settle_idle _ h.quiet)
  · rintro ⟨q, hq, owed⟩
    have off : s.visitDue p b = false := by
      refine Bool.eq_false_iff.mpr fun due => ?_
      rw [(visitDue_of_underWay h b).mp due q hq] at owed
      cases owed
    rw [visit, off, stepWhen_false]

/-- After entry 255 comes the reefer phase (R160). -/
theorem advanceSweep_directory {s : State} {i : Nat} (phase : s.tbs.phase = .directory) (cursor : s.tbs.cursor = i) :
    let next : SweepPhase × Nat := if i = 255 then (.reefer, s.tbs.rangeStart) else (.directory, i + 1)
    advanceSweep s = cursorAt next.1 next.2 s := by
  by_cases last : i = 255
  · simp [advanceSweep, phase, cursor, last, cursorAt, State.onTbs]
  · simp [advanceSweep, phase, cursor, last, cursorAt, State.onTbs]

/-- After the last record of the range comes the grid (R160, R161). -/
theorem advanceSweep_reefer {s : State} {i : Nat} (phase : s.tbs.phase = .reefer) (cursor : s.tbs.cursor = i) :
    let next : SweepPhase × Nat := if i = s.tbs.rangeEnd then (.grid, 0) else (.reefer, (i + 1) % 2048)
    advanceSweep s = cursorAt next.1 next.2 s := by
  by_cases last : i = s.tbs.rangeEnd
  · simp [advanceSweep, phase, cursor, last, cursorAt, State.onTbs]
  · simp [advanceSweep, phase, cursor, last, cursorAt, State.onTbs]

/-- After bin 63 comes the refresh (R160). -/
theorem advanceSweep_grid {s : State} {i : Nat} (phase : s.tbs.phase = .grid) (cursor : s.tbs.cursor = i) :
    let next : SweepPhase × Nat := if i = 63 then (.refresh, 0) else (.grid, i + 1)
    advanceSweep s = cursorAt next.1 next.2 s := by
  by_cases last : i = 63
  · simp [advanceSweep, phase, cursor, last, cursorAt, State.onTbs]
  · simp [advanceSweep, phase, cursor, last, cursorAt, State.onTbs]

/-! ## The directory phase (R58) -/

/-- A visit of an entry that is not LEARNED, or was heard within LEARN_AGE, does nothing. -/
theorem ageTerm_stays {i : Fin 256} {s : State} (young : (s.entry i).st ≠ .learned ∨
    s.tbs.runClock - (s.entry i).lastSeen ≤ s.ccu.cfg.learnAge * 60000000) : ageTerm i s = s := by
  refine if_neg fun ⟨learned, old⟩ => ?_
  rcases young with other | recent
  · exact other learned
  · exact absurd recent (Nat.not_le.mpr old)

/-- Settles O44. -/
theorem directoryVisitAgesLearnedEntries : Obligations.DirectoryVisitAgesLearnedEntries := by
  intro s i cursor e silence next
  have at_ : Fin.ofNat 256 s.tbs.cursor = i := Fin.ext (by simp [cursor])
  constructor
  · intro h
    have visits : exec .directoryAgingVisit s = .next (settle (visitStep (fun s => ageTerm (Fin.ofNat 256 s.tbs.cursor) s) s)) := by
      change Host.Outcome.next (stepWhen (s.visitDue .directory .tdr) _ s) = _
      rw [visitDue_of_sweeping h, stepWhen_true]
    have idle : s.tbs.visiting = false := h.between.2
    constructor
    · intro young
      rw [visits, settle_visitStep_passed idle (by rw [at_]; exact ageTerm_stays young) h.quiet,
        advanceSweep_directory h.phase cursor]
    · intro learned old freed
      let aged := event .tdr .terminalAged .terminal e.id.toNat i.val (termKindCode e.kind)
        ((min (silence / 1000000) 4294967295 : Nat) : Int)
      have effect : ageTerm (Fin.ofNat 256 s.tbs.cursor) s = raised [aged] (freeTerm i s) := by
        rw [at_]
        exact if_pos ⟨learned, old⟩
      have leads := settle_visitStep_raised (body := fun s => ageTerm (Fin.ofNat 256 s.tbs.cursor) s) idle effect rfl h.quiet
      rw [if_neg (List.cons_ne_nil _ _)] at leads
      constructor
      · intro none
        rw [visits, leads, freeTerm_detached none]
      · intro c some
        rw [visits, leads, freeTerm_attached some]
        rfl
  · intro h
    exact visitEnds h rfl fun t phase same start _ =>
      (advanceSweep_directory (phase.trans h.phase) (same.trans cursor)).trans (by rw [start])

end Sys2Proof.Machine
end

section
/-! # The sweep: reefer and grid visits, the refresh, and the digest drain (R112 to R118, R124, R136 to R140, R162, R164) -/

namespace Sys2Proof.Machine

open Sys2Proof.Claims

/-! ## Visits with a digest -/

theorem injected_raised (l : List EventReq) (e : InjEntry) (s : State) : injected e (raised l s) = raised l (injected e s) := rfl

theorem dpRaised_raised (l : List EventReq) (s : State) : dpRaised (raised l s) = raised l (dpRaised s) := rfl

theorem digestEntry_raised (r : Reefer) (n : Nat) (l : List EventReq) (s : State) (retired : Bool) :
    digestEntry r n (raised l s) retired = digestEntry r n s retired := rfl

theorem indicesEntry_raised (mark : Bool) (l : List EventReq) (s : State) :
    indicesEntry mark (raised l s) = indicesEntry mark s := rfl

/-- The events that wait do not show in a digest. -/
theorem digestWritten_raised (r : Reefer) (n : Nat) (l : List EventReq) (s : State) (retired : Bool) :
    digestWritten r n (raised l s) retired = raised l (digestWritten r n s retired) := by
  simp only [digestWritten, dpRaised_raised, digestEntry_raised, injected_raised, indicesEntry_raised]

/-- A visit whose effect is the state `v` with the events `l` and a digest of record `r`. -/
theorem settle_visitStep_digest {body : State → State} {s v : State} {l : List EventReq} {r : Reefer} {n : Nat}
    {retired : Bool} (idle : s.tbs.visiting = false) (effect : body s = raised l (askDigest r n retired v))
    (rpw : v.rpw = s.rpw) (lif : v.lif = s.lif) (ready : Ready 2 s) :
    settle (visitStep body s) =
      if l = [] then advanceSweep (digestWritten r n v retired) else visitRaised l (digestWritten r n v retired) := by
  have quiet : v.lif.injWaiting = [] := lif ▸ ready.quiet
  have room : v.lif.injQueue.length + 2 ≤ Config.injectionDepth := lif ▸ ready.room
  have same : (askDigest r n retired v).rpw.events.length = s.rpw.events.length := congrArg (fun r => r.events.length) rpw
  have events : (digestWritten r n v retired).rpw.events = s.rpw.events := by rw [← rpw]; rfl
  refine settle_visitStep idle ?_ events quiet
  have marked : settle (raised (l.map byVisit) (askDigest r n retired v)) = digestWritten r n (raised (l.map byVisit) v) retired :=
    settle_askDigest (s := raised (l.map byVisit) v) r n retired quiet room
  rw [effect, ← same, markEvents_raised]
  exact marked.trans (digestWritten_raised ..)

/-! ## The reefer phase (R112 to R118) -/

/-- The condition after an evaluation (R112), by the stored condition and the dose. -/
theorem nextCond_eq (p : Profile) (r : Reefer) : nextCond p r =
    if r.cond = .breach ∨ p.breachDose ≤ r.dose then .breach else if p.warnDose ≤ r.dose then .warn else .normal := by
  cases cond : r.cond <;> simp [nextCond, cond]

/-- The events of an evaluation of record `r` (R112). -/
def conditionEvents (p : Profile) (r : Reefer) : List EventReq :=
  if nextCond p r = r.cond ∨ nextCond p r = .normal then []
  else if nextCond p r = .breach then [event .rfm .reeferBreach .tag r.tag.toNat r.dose p.breachDose r.profile.val]
  else [event .rfm .reeferWarn .tag r.tag.toNat r.dose p.warnDose r.profile.val]

/-- An evaluation stores the condition and raises its event (R112). -/
theorem evalCond_eq (p : Profile) (i : Fin 2048) (s : State) : evalCond p i s =
    raised (conditionEvents p (s.reefer i)) (withReefer i { s.reefer i with cond := nextCond p (s.reefer i) } s) := by
  unfold evalCond conditionEvents
  simp only
  by_cases same : nextCond p (s.reefer i) = (s.reefer i).cond
  · rw [if_pos same, if_pos (.inl same), raised_nil]
    rfl
  · rw [if_neg same]
    cases cond : nextCond p (s.reefer i) with
    | normal =>
      rw [if_pos (.inr rfl), raised_nil]
      rfl
    | warn =>
      rw [if_neg (not_or.mpr ⟨cond ▸ same, by decide⟩), if_neg (by decide)]
      rfl
    | breach =>
      rw [if_neg (not_or.mpr ⟨cond ▸ same, by decide⟩), if_pos rfl]
      rfl

/-- The gateway of a tag has been silent, or is not known (R116). -/
def GatewaySilent (s : State) (gateway : BitVec 16) (limit : Nat) : Prop :=
  ∀ g, s.findTerm gateway = some g → limit < s.tbs.runClock - (s.entry g).lastSeen

/-- The grid speaks for COVERAGE on the gateway's entry (R116). -/
def CoverageSpeaks (s : State) (gateway : BitVec 16) : Prop :=
  s.ccu.cfg.coverageEn = true ∧ ∃ (g : Fin 256) (b : Fin 64) (c : Fin 16),
    s.findTerm gateway = some g ∧ (s.entry g).homeBin = some b ∧ (s.entry g).lastCell = some c ∧
      b.val < s.ccu.cfg.binCount ∧ c.val < s.ccu.cfg.cellCount ∧
      ((s.bin b).cells[c].st = .weak ∨ (s.bin b).hole = true ∨
        ∃ m, (s.entry g).lastMargin = some m ∧ m < 16 * s.ccu.cfg.weakDb)

theorem coveragePoor_iff {s : State} {gateway : BitVec 16} {g : Fin 256} (known : s.findTerm gateway = some g) :
    coveragePoor s (s.entry g) = true ↔ CoverageSpeaks s gateway := by
  unfold coveragePoor CoverageSpeaks
  rcases home : (s.entry g).homeBin with _ | b
  · simp [known, home]
  · rcases cell : (s.entry g).lastCell with _ | c
    · simp [known, cell]
    · rcases margin : (s.entry g).lastMargin with _ | m <;>
        simp [known, home, cell, margin, and_assoc, or_assoc]

/-- Why a record goes MISSING (R116). -/
theorem missReason_eq (s : State) (gateway : BitVec 16) (limit : Nat) :
    (GatewaySilent s gateway limit → s.missReason gateway limit = .gatewaySilent) ∧
    (¬GatewaySilent s gateway limit → CoverageSpeaks s gateway → s.missReason gateway limit = .coverage) ∧
    (¬GatewaySilent s gateway limit → ¬CoverageSpeaks s gateway → s.missReason gateway limit = .reeferSilent) := by
  unfold State.missReason GatewaySilent
  rcases known : s.findTerm gateway with _ | g
  · simp
  · have poor := coveragePoor_iff known
    by_cases quiet : limit < s.tbs.runClock - (s.entry g).lastSeen
    · simp [State.now, quiet]
    · cases speaks : coveragePoor s (s.entry g)
      · simp [State.now, quiet, speaks, poor.not.mp (by simp [speaks])]
      · simp [State.now, quiet, speaks, poor.mp speaks]

/-- A REPORTING record beyond its limit goes MISSING (R115). -/
theorem goMissing_gone {p : Profile} {i : Fin 2048} {s : State} (reporting : (s.reefer i).missing = false)
    (silent : missingLimit p < s.tbs.runClock - (s.reefer i).lastReport) :
    let why := s.missReason (s.reefer i).gateway (missingLimit p)
    goMissing p i s = raised [event .rfm .reeferMissing .tag (s.reefer i).tag.toNat (missCode (some why))
        (((s.tbs.runClock - (s.reefer i).lastReport) / 1000000 : Nat) : Int) (s.reefer i).gateway.toNat]
      (withReefer i { s.reefer i with missing := true, reason := some why } s) :=
  if_pos ⟨by simp [reporting], silent⟩

theorem goMissing_stays {p : Profile} {i : Fin 2048} {s : State} (stays : (s.reefer i).missing = true ∨
    s.tbs.runClock - (s.reefer i).lastReport ≤ missingLimit p) : goMissing p i s = s := by
  refine if_neg fun ⟨reporting, silent⟩ => ?_
  rcases stays with missing | heard
  · simp [missing] at reporting
  · exact absurd heard (Nat.not_le.mpr silent)

/-- Record `i` is too old to keep (R118). -/
def TooOld (s : State) (i : Fin 2048) : Prop :=
  s.ccu.cfg.retireAge ≠ 0 ∧ s.ccu.cfg.retireAge * 3600000000 < s.tbs.runClock - (s.reefer i).lastReport

/-- A visit of a record that is kept (R114). -/
theorem visitReefer_kept {i : Fin 2048} {s : State} (used : (s.reefer i).used = true) (kept : ¬TooOld s i) :
    visitReefer i s =
      let t := evalCond (s.profileOf i) i (goMissing (s.profileOf i) i s)
      if (s.reefer i).missing ≠ (t.reefer i).missing ∨ (s.reefer i).cond ≠ (t.reefer i).cond then trigger i t else t := by
  unfold visitReefer
  rw [if_neg (by simp [used])]
  exact if_neg kept

theorem withReefer_self (i : Fin 2048) (s : State) : withReefer i (s.reefer i) s = s := by
  simp [withReefer, State.reefer]

/-- A visit of a record that is kept and changes: its events, and one digest (R112, R115, R122). -/
theorem visitReefer_changes {i : Fin 2048} {s : State} {r : Reefer} {l : List EventReq} (used : (s.reefer i).used = true)
    (kept : ¬TooOld s i) (gone : goMissing (s.profileOf i) i s = raised l (withReefer i r s))
    (next : nextCond (s.profileOf i) r = nextCond (s.profileOf i) (s.reefer i))
    (events : conditionEvents (s.profileOf i) r = conditionEvents (s.profileOf i) (s.reefer i))
    (changes : (s.reefer i).missing ≠ r.missing ∨ (s.reefer i).cond ≠ nextCond (s.profileOf i) (s.reefer i)) :
    visitReefer i s = raised (l ++ conditionEvents (s.profileOf i) (s.reefer i))
      (trigger i (withReefer i { r with cond := nextCond (s.profileOf i) (s.reefer i) } s)) := by
  have record : (raised l (withReefer i r s)).reefer i = r := withReefer_reefer i r s
  have evaluated : evalCond (s.profileOf i) i (goMissing (s.profileOf i) i s) =
      raised (l ++ conditionEvents (s.profileOf i) (s.reefer i))
        (withReefer i { r with cond := nextCond (s.profileOf i) (s.reefer i) } s) := by
    rw [gone, evalCond_eq, record, next, events]
    exact (congrArg _ (congrArg (raised l) (withReefer_withReefer i r _ s))).trans (raised_raised ..)
  have after : (raised (l ++ conditionEvents (s.profileOf i) (s.reefer i))
      (withReefer i { r with cond := nextCond (s.profileOf i) (s.reefer i) } s)).reefer i =
      { r with cond := nextCond (s.profileOf i) (s.reefer i) } := withReefer_reefer ..
  rw [visitReefer_kept used kept]
  simp only [evaluated, after]
  rw [if_pos changes, trigger_raised]

/-- A visit of a record that is kept and does not change does nothing. -/
theorem visitReefer_unchanged {i : Fin 2048} {s : State} (kept : ¬TooOld s i)
    (reported : (s.reefer i).missing = true ∨
      s.tbs.runClock - (s.reefer i).lastReport ≤ missingLimit (s.profileOf i))
    (same : nextCond (s.profileOf i) (s.reefer i) = (s.reefer i).cond) : visitReefer i s = s := by
  cases used : (s.reefer i).used with
  | false => exact if_pos (by simp [used])
  | true =>
    have evaluated : evalCond (s.profileOf i) i (goMissing (s.profileOf i) i s) = s := by
      rw [goMissing_stays reported, evalCond_eq, conditionEvents, if_pos (.inl same), raised_nil, same]
      exact withReefer_self i s
    rw [visitReefer_kept used kept]
    simp only [evaluated]
    exact if_neg (by simp)

/-- Where the cursor goes after record `i` (R160, R161). -/
def afterReefer (s : State) (i : Fin 2048) : SweepPhase × Nat :=
  if i.val = s.tbs.rangeEnd then (.grid, 0) else (.reefer, (i.val + 1) % 2048)

/-- `u`, to which a reefer visit of record `i` of `s` led with the events `l`: over, or under way until they are taken. -/
def reeferVisited (s : State) (i : Fin 2048) (l : List EventReq) (u : State) : State :=
  if l = [] then cursorAt (afterReefer s i).1 (afterReefer s i).2 u else visitRaised l u

section
variable {s : State} {i : Fin 2048} (h : Sweeping .reefer s) (cursor : s.tbs.cursor = i.val) (calm : s.rmn.handling = none)
include h cursor calm

/-- A reefer visit of a RUNNING sweep is taken at once. -/
theorem exec_reeferVisit {u : State} {l : List EventReq} (tbs : u.tbs = s.tbs)
    (settled : ∀ body : State → State, body s = (if s.ccu.cfg.reeferEn then visitReefer i s else s) →
      settle (visitStep body s) = if l = [] then advanceSweep u else visitRaised l u) :
    exec .reeferVisit s = .next (reeferVisited s i l u) := by
  have at_ : Fin.ofNat 2048 s.tbs.cursor = i := Fin.ext (by simp [cursor])
  have due : (s.visitDue .reefer .rfm && (s.tbs.visiting || s.digestsFlow)) = true := by
    simp [visitDue_of_sweeping h, State.digestsFlow, (blocked_quiet s .rpw h.quiet).1, calm]
  have moves : advanceSweep u = cursorAt (afterReefer s i).1 (afterReefer s i).2 u := by
    have step := advanceSweep_reefer (s := u) (i := i.val) (by rw [tbs]; exact h.phase) (by rw [tbs]; exact cursor)
    rw [tbs] at step
    exact step
  change Host.Outcome.next (stepWhen (s.visitDue .reefer .rfm && (s.tbs.visiting || s.digestsFlow)) _ s) = _
  rw [due, stepWhen_true, settled _ (by simp only [at_]), moves]
  rfl

/-- A reefer visit that changes record `i` to `r` triggers one digest (R123). -/
theorem exec_reeferVisit_changes (on : s.ccu.cfg.reeferEn = true) {r : Reefer} {l : List EventReq}
    (effect : visitReefer i s = raised l (trigger i (withReefer i r s))) :
    let leaves (u : State) : Prop := exec .reeferVisit s = .next (reeferVisited s i l u)
    (r.pending = true → leaves (withReefer i { r with triggers := min (r.triggers + 1) 255 } s)) ∧
      (r.pending = false → DigestFits s → Ready 2 s → leaves (digestWritten r 1 (withReefer i r s))) ∧
      (r.pending = false → ¬DigestFits s → leaves (withReefer i { r with pending := true, triggers := 1 }
        { s with rfm := { s.rfm with pendingCount := s.rfm.pendingCount + 1 } })) := by
  have idle := h.between.2
  have taken {body : State → State} (same : body s = if s.ccu.cfg.reeferEn then visitReefer i s else s) :
      body s = raised l (trigger i (withReefer i r s)) := same.trans ((if_pos on).trans effect)
  refine ⟨fun owed => ?_, fun none fits ready => ?_, fun none full => ?_⟩
  · have counted : trigger i (withReefer i r s) = withReefer i { r with triggers := min (r.triggers + 1) 255 } s := by
      have counts := trigger_counted (i := i) (s := withReefer i r s) (by rw [withReefer_reefer]; exact owed)
      rw [withReefer_reefer, withReefer_withReefer] at counts
      exact counts
    exact exec_reeferVisit h cursor calm rfl fun body same =>
      settle_visitStep_raised idle ((taken same).trans (congrArg _ counted)) rfl h.quiet
  · have writes : trigger i (withReefer i r s) = askDigest r 1 false (withReefer i r s) := by
      rw [trigger_withReefer_written i none fits, writeDigest_eq, withReefer_reefer]
    exact exec_reeferVisit h cursor calm rfl fun body same =>
      settle_visitStep_digest idle ((taken same).trans (congrArg _ writes)) rfl rfl ready
  · exact exec_reeferVisit h cursor calm rfl fun body same =>
      settle_visitStep_raised idle ((taken same).trans (congrArg _ (trigger_withReefer_owed i none full))) rfl h.quiet

end

/-- Settles O45: a visit passes a record over, or changes it and triggers one digest, or retires it; its end waits for its
events. -/
theorem reeferVisitFindsTheSilent : Obligations.ReeferVisitFindsTheSilent := by
  intro s i cursor r p limit silence silent poor next old cond condition
  have cond_eq : cond = nextCond p r := (nextCond_eq p r).symm
  have condition_eq : condition = conditionEvents p r := by
    rw [conditionEvents, ← cond_eq]
  refine ⟨fun h calm => ⟨?passed, ?kept, ?retired⟩, fun h => ?ends⟩
  case passed =>
    intro nothing
    have stays : (if s.ccu.cfg.reeferEn then visitReefer i s else s) = s := by
      split
      · next on =>
        rcases nothing with off | free | ⟨young, reported, same⟩
        · simp [on] at off
        · exact if_pos (by rw [show (s.reefer i).used = false from free]; rfl)
        · exact visitReefer_unchanged young reported (cond_eq.symm.trans same)
      · rfl
    exact exec_reeferVisit h cursor calm (l := []) rfl fun body same =>
      settle_visitStep_passed h.between.2 (same.trans stays) h.quiet
  case kept =>
    intro on used young acts goes
    have change_ (m : Bool) (why : Option MissReason) (l : List EventReq) (effect : visitReefer i s = raised (l ++ condition)
        (trigger i (withReefer i { r with missing := m, reason := why, cond := cond } s))) :
        acts { r with missing := m, reason := why } l :=
      exec_reeferVisit_changes h cursor calm on effect
    refine ⟨fun reporting beyond => ?_, fun reported changes => ?_⟩
    · have gone (why : MissReason) (reason : s.missReason r.gateway (missingLimit p) = why) :
          goes why (missCode (some why)) := by
        refine change_ true (some why) _ ?_
        have missing := goMissing_gone (p := p) reporting beyond
        simp only [show s.missReason (s.reefer i).gateway (missingLimit p) = why from reason] at missing
        rw [cond_eq, condition_eq]
        exact visitReefer_changes used young missing rfl rfl (.inl fun same => Bool.false_ne_true (reporting.symm.trans same))
      obtain ⟨isSilent, isPoor, isElse⟩ := missReason_eq s r.gateway (missingLimit p)
      exact ⟨fun hs => gone _ (isSilent hs), fun ns hp => gone _ (isPoor ns hp), fun ns np => gone _ (isElse ns np)⟩
    · refine change_ r.missing r.reason [] ?_
      have stays : goMissing p i s = raised [] (withReefer i r s) := by
        rw [raised_nil, withReefer_self]
        exact goMissing_stays reported
      rw [cond_eq, condition_eq]
      exact visitReefer_changes used young stays rfl rfl (.inr fun same => changes (cond_eq.trans same.symm))
  case retired =>
    intro on used tooOld freed retires
    have visit {body : State → State} (same : body s = if s.ccu.cfg.reeferEn then visitReefer i s else s) :
        body s = retire i 1 s := by
      rw [same, if_pos on]
      unfold visitReefer
      rw [if_neg (by simp [show (s.reefer i).used = true from used])]
      exact if_pos tooOld
    constructor
    · intro full
      refine ⟨retiredEvent r 1 false, ?_, retiredEvent_fields ..⟩
      exact exec_reeferVisit h cursor calm (l := [retiredEvent r 1 false]) rfl fun body same =>
        settle_visitStep_raised h.between.2 ((visit same).trans (retire_lost 1 full)) rfl h.quiet
    · intro fits ready
      refine ⟨retiredEvent r 1 true, ?_, retiredEvent_fields ..⟩
      exact exec_reeferVisit h cursor calm (l := [retiredEvent r 1 true]) rfl fun body same =>
        settle_visitStep_digest (v := retiredFrom i s) h.between.2 ((visit same).trans (retire_written 1 fits)) rfl rfl ready
  case ends =>
    have visits : exec .reeferVisit s = .next (stepWhen (s.visitDue .reefer .rfm)
        (visitStep fun s => if s.ccu.cfg.reeferEn then visitReefer (Fin.ofNat 2048 s.tbs.cursor) s else s) s) := by
      have due : (s.visitDue .reefer .rfm && (s.tbs.visiting || s.digestsFlow)) = s.visitDue .reefer .rfm := by
        rw [h.visiting.2, Bool.true_or, Bool.and_true]
      change Host.Outcome.next (stepWhen (s.visitDue .reefer .rfm && (s.tbs.visiting || s.digestsFlow)) _ s) = _
      rw [due]
    exact visitEnds h visits fun t phase same _ last =>
      (advanceSweep_reefer (phase.trans h.phase) (same.trans cursor)).trans (by rw [last])

end Sys2Proof.Machine
end

section
/-! # The sweep: grid visits and the refresh; the digest drain (R124, R136 to R140, R162, R164) -/

namespace Sys2Proof.Machine

open Sys2Proof.Claims

/-! ## The grid phase (R140) -/

theorem cellStale_iff (c : Cfg) (t : Nat) (cell : Cell) :
    cellStale c t cell = true ↔ 0 < cell.n ∧ c.ageLimit * 60000000 < t - cell.last := by
  simp [cellStale]

/-- A row whose stale cells are reset (R140). -/
def agedRow (c : Cfg) (t : Nat) (row : Bin) : Bin :=
  { row with cells := row.cells.map fun cell => if cellStale c t cell then .reset else cell }

theorem agedRow_cell (c : Cfg) (t : Nat) (row : Bin) (i : Fin 16) :
    (agedRow c t row).cells[i] = if cellStale c t row.cells[i] then .reset else row.cells[i] := Vector.getElem_map _ i.isLt

/-- A visit of a bin without a stale cell does nothing. -/
theorem ageBin_stays {b : Fin 64} {s : State} (fresh : ∀ i : Fin 16, ¬cellStale s.ccu.cfg s.now (s.bin b).cells[i] = true) :
    ageBin b s = s := by
  refine if_neg fun some => ?_
  obtain ⟨cell, mem, stale⟩ := List.any_eq_true.mp some
  obtain ⟨i, hi, rfl⟩ := Vector.mem_iff_getElem.mp (Vector.mem_toList_iff.mp mem)
  exact fresh ⟨i, hi⟩ stale

/-- A visit of a bin with a stale cell resets the stale cells and evaluates the bin. -/
theorem ageBin_aged {b : Fin 64} {s : State} {i : Fin 16} (stale : cellStale s.ccu.cfg s.now (s.bin b).cells[i] = true) :
    let u := withBin b (agedRow s.ccu.cfg s.now (s.bin b)) s
    ageBin b s = raised (evaluationEvents u b .aging) (withBin b (evaluatedRow u b) s) := by
  intro u
  have ages : ageBin b s = evalBin b .aging u :=
    if_pos (List.any_eq_true.mpr ⟨_, Vector.mem_toList_iff.mpr (Vector.getElem_mem i.isLt), stale⟩)
  rw [ages, evalBin_raised, withBin_withBin]

/-- Where the cursor goes after bin `b` (R160). -/
def afterGrid (b : Fin 64) : SweepPhase × Nat := if b.val = 63 then (.refresh, 0) else (.grid, b.val + 1)

/-- `u`, to which a grid visit of bin `b` led with the events `l`: over, or under way until they are taken. -/
def gridVisited (b : Fin 64) (l : List EventReq) (u : State) : State :=
  if l = [] then cursorAt (afterGrid b).1 (afterGrid b).2 u else visitRaised l u

/-- A grid visit of a RUNNING sweep is taken at once. -/
theorem exec_gridAgingVisit {s u : State} {b : Fin 64} {l : List EventReq} (h : Sweeping .grid s) (cursor : s.tbs.cursor = b.val)
    (effect : (if s.ccu.cfg.coverageEn then ageBin b s else s) = raised l u) (rpw : u.rpw = s.rpw) (lif : u.lif = s.lif)
    (tbs : u.tbs = s.tbs) : exec .gridAgingVisit s = .next (gridVisited b l u) := by
  have at_ : Fin.ofNat 64 s.tbs.cursor = b := Fin.ext (by simp [cursor])
  have quiet : u.lif.injWaiting = [] := lif ▸ h.quiet
  have moves : advanceSweep u = cursorAt (afterGrid b).1 (afterGrid b).2 u :=
    advanceSweep_grid (s := u) (i := b.val) (by rw [tbs]; exact h.phase) (by rw [tbs]; exact cursor)
  change Host.Outcome.next (stepWhen (s.visitDue .grid .cvm) _ s) = _
  rw [visitDue_of_sweeping h, stepWhen_true,
    settle_visitStep_raised (v := u) (l := l) h.between.2 (by simp only [at_]; exact effect) rpw quiet, moves]
  rfl

/-- Settles O46: a visit does nothing, or resets the stale cells and evaluates the bin; its end waits for its events. -/
theorem gridVisitAgesCells : Obligations.GridVisitAgesCells := by
  intro s b cursor stale next
  have isStale (cell : Cell) : cellStale s.ccu.cfg s.now cell = true ↔ stale cell := cellStale_iff ..
  refine ⟨fun h => ⟨fun nothing => ?_, fun on some => ?_⟩, fun h => ?_⟩
  · have stays : (if s.ccu.cfg.coverageEn then ageBin b s else s) = raised [] s := by
      rw [raised_nil]
      split
      · next on =>
        rcases nothing with off | fresh
        · simp [on] at off
        · exact ageBin_stays fun i is => fresh i ((isStale _).mp is)
      · rfl
    exact exec_gridAgingVisit h cursor stays rfl rfl rfl
  · obtain ⟨i, old⟩ := some
    let u := withBin b (agedRow s.ccu.cfg s.now (s.bin b)) s
    let events := evaluationEvents u b .aging
    let v := withBin b (evaluatedRow u b) s
    have row : u.bin b = agedRow s.ccu.cfg s.now (s.bin b) := withBin_bin ..
    have cells (j : Fin 16) : ((v.bin b).cells[j]) =
        if cellStale s.ccu.cfg s.now (s.bin b).cells[j] then .reset else (s.bin b).cells[j] := by
      have same : (evaluatedRow u b).cells = (agedRow s.ccu.cfg s.now (s.bin b)).cells  :=
        (show (evaluatedRow u b).cells = (u.bin b).cells from rfl).trans (congrArg Bin.cells row)
      simp only [v, withBin_bin, same]
      exact agedRow_cell ..
    have leads : exec .gridAgingVisit s = .next (gridVisited b events v) :=
      exec_gridAgingVisit h cursor ((if_pos on).trans (ageBin_aged ((isStale _).mpr old))) rfl rfl rfl
    have grid : (gridVisited b events v).cvm = v.cvm := by
      unfold gridVisited
      split <;> rfl
    have bins (d : Fin 64) : (gridVisited b events v).bin d = v.bin d := by simp only [State.bin, grid]
    refine ⟨_, events, leads, ?_, ?_, fun d other => ?_, fun j is => ?_, fun j isNot => ?_, ?_, ?_, ?_⟩
    · unfold gridVisited
      split <;> simp [SameBut, v, withBin, cursorAt, visitRaised]
    · rw [grid]
      rfl
    · exact (bins d).trans (withBin_bin_ne _ _ other)
    · rw [bins, cells, if_pos ((isStale _).mpr is)]
      rfl
    · rw [bins, cells, if_neg (mt (isStale _).mp isNot)]
    · rw [bins, show v.bin b = evaluatedRow u b from withBin_bin ..]
      exact evaluated_evaluatedRow (s := u) .aging (by rw [row]; rfl) (by rw [row]; rfl)
    · unfold gridVisited
      split
      · next none => simp [none, v, withBin, cursorAt]
      · rfl
    · unfold gridVisited
      split <;> rfl
  · exact visitEnds h rfl fun t phase same _ _ => advanceSweep_grid (phase.trans h.phase) (same.trans cursor)

/-! ## The refresh (R162, R164) -/

theorem satBytes_length (n v : Nat) : (satBytes n v).length = n := leBytes_length ..

theorem siteBytes_length (t : Word64) : (siteBytes t).length = 6 := leBytes_length ..

theorem length_flatMap_const {α β : Type} {f : α → List β} {n : Nat} (each : ∀ a, (f a).length = n) (l : List α) :
    (l.flatMap f).length = n * l.length := by
  induction l with
  | nil => rfl
  | cons a l ih => simp only [List.flatMap_cons, List.length_append, each, ih, List.length_cons, Nat.mul_succ, Nat.add_comm]

theorem directorySection_length (s : State) : (directorySection s).length = 48 := by
  simp [directorySection, length_flatMap_const (n := 2) (fun _ => satBytes_length ..)]

theorem reeferSection_length (s : State) : (reeferSection s).length = 10 := by simp [reeferSection]

theorem coverageSection_length (s : State) : (coverageSection s).length = 16 := by simp [coverageSection, satBytes_length]

theorem sweepSection_length (n : Word) (s : State) : (sweepSection n s).length = 32 := by
  simp [sweepSection, satBytes_length, siteBytes_length]

theorem craneBytes_length (c : Crane) : (craneBytes c).length = 64 := by
  unfold craneBytes
  simp only [List.length_append, leBytes_length, satBytes_length]

theorem craneSection_length (s : State) : (craneSection s).length = 2048 := by
  rw [craneSection, length_flatMap_const (n := 64) craneBytes_length, Vector.length_toList]

/-- The entries of `n` chunks of `bytes`, from byte `off` of the status page on (R16; log 61). -/
def chunkEntries (b : Block) (off : Nat) (bytes : List Byte) (n : Nat) (s : State) : List InjEntry :=
  (List.range n).map fun k => areaEntry b (0x8000 + (off + 256 * k)) (beatsOf ((bytes.drop (256 * k)).take 256)) false s

/-- The first chunk, and the chunks of the rest. -/
theorem chunkEntries_succ (b : Block) (off : Nat) (bytes : List Byte) (n : Nat) (s : State) :
    chunkEntries b off bytes (n + 1) s =
      areaEntry b (0x8000 + off) (beatsOf (bytes.take 256)) false s :: chunkEntries b (off + 256) (bytes.drop 256) n s := by
  simp only [chunkEntries, List.range_succ_eq_map, List.map_cons, List.map_map]
  refine congrArg _ (List.map_congr_left fun k _ => ?_)
  simp only [Function.comp, List.drop_drop, Nat.succ_eq_add_one, Nat.mul_add, Nat.mul_one]
  rw [show off + (256 * k + 256) = off + 256 + 256 * k by omega, show 256 * k + 256 = 256 + 256 * k by omega]

/-- `s` with entries behind the injection queue. -/
def injectedAll (l : List InjEntry) (s : State) : State := { s with lif := { s.lif with injQueue := s.lif.injQueue ++ l } }

theorem injectedAll_cons (e : InjEntry) (l : List InjEntry) (s : State) :
    injectedAll l (injected e s) = injectedAll (e :: l) s := by
  simp [injectedAll, injected]

/-- Where nothing waits, what stands before every other request waits alone. -/
theorem askFirst_quiet {s : State} (b : Block) (op : InjOp) (quiet : s.lif.injWaiting = []) : s.askFirst b op = s.ask b op := by
  simp [State.askFirst, State.ask, State.onLif, quiet]

/-- A section of whole chunks joins entry by entry, and the refresh goes on behind it (R16, R164). -/
theorem settle_joinRefresh (b : Block) (n : Nat) : ∀ (off : Nat) (bytes : List Byte) (s : State),
    bytes.length = 256 * (n + 1) → s.lif.injWaiting = [] → s.lif.injQueue.length + (n + 1) ≤ 16 →
    settle (joinRefresh b off bytes s) = refreshDone (injectedAll (chunkEntries b off bytes (n + 1) s) s) := by
  induction n with
  | zero =>
    intro off bytes s length quiet _
    have none : bytes.drop 256 = [] := List.drop_eq_nil_of_le (by omega)
    have joins : joinRefresh b off bytes s =
        refreshDone (injected (areaEntry b (0x8000 + off) (beatsOf (bytes.take 256)) false s) s) := if_pos none
    rw [joins, chunkEntries_succ]
    exact settle_idle _ ((congrArg Lif.injWaiting (refreshDone_lif _)).trans quiet)
  | succ n ih =>
    intro off bytes s length quiet room
    let e := areaEntry b (0x8000 + off) (beatsOf (bytes.take 256)) false s
    have rest : bytes.drop 256 ≠ [] := by
      rw [ne_eq, List.drop_eq_nil_iff]
      omega
    have short : (injected e s).lif.injQueue.length < Config.injectionDepth := by
      simp only [injected, List.length_append, List.length_singleton, Config.injectionDepth]
      omega
    have joins : joinRefresh b off bytes s = (injected e s).ask b (.refreshRest (off + 256) (bytes.drop 256)) :=
      (if_neg rest).trans (askFirst_quiet (s := injected e s) _ _ quiet)
    have goes : joinOp b (.refreshRest (off + 256) (bytes.drop 256)) (injected e s) =
        joinRefresh b (off + 256) (bytes.drop 256) (injected e s) := rfl
    rw [joins, settle_ask (s := injected e s) quiet short, goes,
      ih (off + 256) (bytes.drop 256) (injected e s) (by rw [List.length_drop]; omega) quiet
        (by simp only [injected, List.length_append, List.length_singleton]; omega), chunkEntries_succ b off]
    exact congrArg refreshDone (injectedAll_cons e _ s)

/-- The sweep waits while a section joins (R164). -/
def refreshingOf (s : State) : State := s.onTbs fun t => { t with refreshing := true }

/-- A section but the last has joined: the cursor moves (R164). -/
theorem refreshDone_next {s : State} (l : List InjEntry) (h : Sweeping .refresh s) (more : s.tbs.cursor ≠ 4) :
    refreshDone (injectedAll l (refreshingOf s)) = cursorAt .refresh (s.tbs.cursor + 1) (injectedAll l s) := by
  have moved : refreshDone (injectedAll l (refreshingOf s)) =
      { injectedAll l s with tbs := { s.tbs with refreshing := false, cursor := s.tbs.cursor + 1 } } := if_neg more
  rw [moved, ← h.between.1, ← h.phase]
  rfl

/-- A refresh section of a RUNNING sweep is asked for at once. -/
theorem exec_refreshSection {s : State} (h : Sweeping .refresh s) :
    exec .refreshSection s = .next (settle (askSection s)) := by
  have due : (s.visitDue .refresh (sectionOwner (Fin.ofNat 5 s.tbs.cursor)) && !s.tbs.visiting) = true := by
    rw [visitDue_of_sweeping h, h.between.2]
    rfl
  change Host.Outcome.next (stepWhen (s.visitDue .refresh (sectionOwner (Fin.ofNat 5 s.tbs.cursor)) && !s.tbs.visiting) _ s) = _
  rw [due, stepWhen_true]

/-- A section of at most 256 bytes joins as one entry of its owner (R164, R177). -/
theorem exec_refreshSection_short {s : State} (h : Sweeping .refresh s) (ready : Ready 1 s) {k : Fin 5}
    (cursor : Fin.ofNat 5 s.tbs.cursor = k) (short : (refreshSection k (refreshingOf s)).2.length ≤ 256) :
    exec .refreshSection s = .next (refreshDone (injectedAll
      [areaEntry (sectionOwner k) (0x8000 + (refreshSection k (refreshingOf s)).1)
        (beatsOf (refreshSection k (refreshingOf s)).2) false s] (refreshingOf s))) := by
  have joins := settle_section s ready.quiet ready.room
  simp only [cursor] at joins
  rw [exec_refreshSection h, joins short]
  rfl

/-- Latching a select and a period that are latched already changes nothing (R157). -/
theorem latchSelect_latched {s : State} (sel : s.tbs.latchedSel = s.ccu.cfg.sweepSel)
    (period : s.tbs.latchedPeriod = s.ccu.cfg.sweepPeriod)
    (stopped : s.ccu.cfg.sweepSel ≠ .period → s.tbs.countdown = none) : latchSelect s = s := by
  have countdown : latchedCountdown s.ccu.cfg s = s.tbs.countdown := by
    unfold latchedCountdown
    by_cases timed : s.ccu.cfg.sweepSel = .period
    · rw [if_pos timed, if_neg (by rintro (other | other); exacts [other (sel.trans timed), other period])]
    · rw [if_neg timed, stopped timed]
  simp only [latchSelect, countdown, ← sel, ← period]
  rfl

/-- The last section has joined: the sweep ends, and begins anew where the restart flag is set (R162). -/
theorem refreshDone_last {s : State} (l : List InjEntry) (h : Sweeping .refresh s) (last : s.tbs.cursor = 4)
    (sel : s.tbs.latchedSel = s.ccu.cfg.sweepSel) (period : s.tbs.latchedPeriod = s.ccu.cfg.sweepPeriod)
    (stopped : s.ccu.cfg.sweepSel ≠ .period → s.tbs.countdown = none) :
    refreshDone (injectedAll l (refreshingOf s)) = injectedAll l { s with tbs :=
      { if s.tbs.restart then sweepBegun s else { s.tbs with sweeping := false } with completed := s.tbs.completed + 1 } } := by
  let v : State := injectedAll l { s with tbs := { s.tbs with completed := s.tbs.completed + 1, sweeping := false } }
  have still : { s.tbs with refreshing := false } = s.tbs := by rw [← h.between.1]
  have latched : latchSelect v = v := latchSelect_latched sel period stopped
  have ends : refreshDone (injectedAll l (refreshingOf s)) = if v.tbs.restart ∧ v.running then beginSweep v else v := by
    have done : refreshDone (injectedAll l (refreshingOf s)) =
        endSweep (injectedAll l { s with tbs := { s.tbs with refreshing := false } }) := if_pos last
    have ended : endSweep (injectedAll l s) =
        if (latchSelect v).tbs.restart ∧ (latchSelect v).running then beginSweep (latchSelect v) else latchSelect v := rfl
    rw [done, still, ended, latched]
  have running : v.running = true := by simp [v, injectedAll, State.running, h.running]
  rw [ends]
  cases restart : s.tbs.restart
  · have off : v.tbs.restart = false := restart
    exact if_neg (by simp [off])
  · have on : v.tbs.restart = true := restart
    exact if_pos ⟨on, running⟩

/-- Settles O47: four sections are one entry each, the crane section eight. -/
theorem refreshSectionJoins : Obligations.RefreshSectionJoins := by
  intro s h ready entry next part
  have next_ (k : Fin 5) (n : Nat) (cursor : s.tbs.cursor = n) (at_ : Fin.ofNat 5 n = k) (more : n ≠ 4)
      (short : (refreshSection k (refreshingOf s)).2.length ≤ 256) :
      exec .refreshSection s = .next (next (injected (entry (sectionOwner k) (refreshSection k (refreshingOf s)).1
        (refreshSection k (refreshingOf s)).2) s)) := by
    rw [exec_refreshSection_short h ready (cursor ▸ at_) short, refreshDone_next _ h (cursor ▸ more)]
    rfl
  refine ⟨fun cursor => ?_, fun cursor eight => ?_, fun cursor => ?_, fun cursor => ?_, fun cursor sel period stopped => ?_⟩
  · exact next_ 0 0 cursor rfl (by decide) (by rw [refreshSection, directorySection_length]; decide)
  · have asks : settle (askSection s) = settle (joinRefresh .csv 0x400 (craneSection s) (refreshingOf s)) := by
      unfold askSection
      simp only [cursor]
      exact settle_ask (s := refreshingOf s) ready.quiet ready.room
    rw [exec_refreshSection h, asks, settle_joinRefresh .csv 7 0x400 (craneSection s) (refreshingOf s)
      (craneSection_length s) eight.quiet eight.room, refreshDone_next _ h (by omega)]
    rfl
  · exact next_ 2 2 cursor rfl (by decide) (by rw [refreshSection, reeferSection_length]; decide)
  · exact next_ 3 3 cursor rfl (by decide) (by rw [refreshSection, coverageSection_length]; decide)
  · have short : (refreshSection 4 (refreshingOf s)).2.length ≤ 256 := by
      rw [refreshSection, sweepSection_length]
      decide
    have leads := exec_refreshSection_short h ready (k := 4) (by rw [cursor]; rfl) short
    rw [refreshDone_last _ h cursor sel period stopped] at leads
    constructor
    · intro off
      rw [off, if_neg Bool.false_ne_true] at leads
      exact leads
    · intro on
      rw [on, if_pos rfl] at leads
      exact leads

/-! ## The digest drain (R124) -/

/-- Settles O48: the cases of the record at the cursor. -/
theorem drainWritesOwedDigests : Obligations.DrainWritesOwedDigests := by
  intro s working draining calm i r
  have drains {n : Nat} (ready : Ready n s) : exec .digestDrainStep s = .next (settle (drainStep s)) := by
    have due : s.drainDue = true := by
      simp [State.drainDue, ready.released, working, draining, State.digestsFlow, calm,
        (blocked_quiet s .rpw ready.quiet).1, (blocked_quiet s .rfm ready.quiet).2.2]
    change Host.Outcome.next (stepWhen s.drainDue drainStep s) = _
    rw [due, stepWhen_true]
  refine ⟨fun ready none => ?_, fun ready used owed full => ?_, fun ready used owed fits => ?_⟩
  · have passes : drainStep s = s.onRfm fun m => { m with cursor := m.cursor + 1 } := by
      refine if_neg fun ⟨used, owed⟩ => ?_
      rcases none with free | paid
      · exact Bool.false_ne_true (free.symm.trans used)
      · exact Bool.false_ne_true (paid.symm.trans owed)
    rw [drains ready, passes]
    exact congrArg Host.Outcome.next (settle_idle _ ready.quiet)
  · have stops : drainStep s = s.onRfm fun m => { m with draining := false } :=
      (if_pos ⟨used, owed⟩).trans (if_neg (mt (digestFree_pos_iff s).mp (Nat.not_lt.mpr full)))
    rw [drains ready, stops]
    exact congrArg Host.Outcome.next (settle_idle _ ready.quiet)
  · let v : State := decPending ((withReefer i { r with pending := false, triggers := 0 } s).onRfm fun m =>
      { m with cursor := m.cursor + 1 })
    have writes : drainStep s = askDigest r r.triggers false v :=
      (if_pos ⟨used, owed⟩).trans (if_pos ((digestFree_pos_iff s).mpr fits))
    have written : exec .digestDrainStep s = .next (digestWritten r r.triggers v) := by
      rw [drains ready, writes, settle_askDigest (s := v) r r.triggers false ready.quiet ready.room]
    refine ⟨_, written, ?_, ?_, ?_, rfl, rfl, ?_, rfl, ?_⟩
    · simp [SameBut, digestWritten, injected, dpRaised, v, decPending, withReefer]
    · exact withReefer_reefer i _ s
    · exact fun j other => s.onReefer_reefer_ne i j (fun _ => _) other
    · have left : (digestWritten r r.triggers v).rfm.draining = (s.rfm.draining && !(s.rfm.pendingCount - 1 == 0)) := rfl
      rw [left, draining]
      simp
    · have queue : (digestWritten r r.triggers v).lif = { s.lif with injQueue := s.lif.injQueue ++ [digestEntry r r.triggers s] ++
          [indicesEntry false (dpRaised s)] } := rfl
      rw [queue, List.append_assoc]
      rfl

end Sys2Proof.Machine
end

section
/-! # Taking events (10_commands_events_and_the_attention_line.md, R183 to R185)

What becomes of a taken event, and the status write of the command whose last event it was. -/

namespace Sys2Proof.Machine

open Sys2Proof.Claims

/-! ## Requests that only join (R16) -/

/-- The requests of `l`, asked for in order. -/
def asks (l : List (Block × InjOp)) (s : State) : State := l.foldl (fun s w => s.ask w.1 w.2) s

/-- The requests of `l` joined in order. -/
def joins (l : List (Block × InjOp)) (s : State) : State := l.foldl (fun s w => joinOp w.1 w.2 s) s

/-- Request `op` joins alike whatever waits, and asks for nothing. -/
def JoinsAlone (op : InjOp) : Prop :=
  ∀ b s l, joinOp b op (s.onLif fun f => { f with injWaiting := l }) = (joinOp b op s).onLif fun f => { f with injWaiting := l }

theorem asks_eq (l : List (Block × InjOp)) : ∀ s, asks l s = s.onLif fun f => { f with injWaiting := f.injWaiting ++ l } := by
  induction l with
  | nil => simp [asks, State.onLif]
  | cons w l ih =>
    intro s
    rw [show asks (w :: l) s = asks l (s.ask w.1 w.2) from rfl, ih]
    simp [State.ask, State.onLif]

/-- Where nothing waits, requests that only join do so in their order, each into a place of its own. -/
theorem settle_asks (l : List (Block × InjOp)) : ∀ s : State, (∀ w ∈ l, JoinsAlone w.2) → s.lif.injWaiting = [] →
    s.lif.injQueue.length + l.length ≤ 16 → settle (asks l s) = joins l s ∧ (joins l s).lif.injWaiting = [] := by
  induction l with
  | nil => exact fun s _ quiet _ => ⟨settle_idle s quiet, quiet⟩
  | cons w l ih =>
    intro s alone quiet room
    rw [List.length_cons] at room
    have still : s = s.onLif fun f => { f with injWaiting := [] } := by simp [State.onLif, ← quiet]
    have calm : (joinOp w.1 w.2 s).lif.injWaiting = [] := by
      rw [still, alone w List.mem_cons_self]
      rfl
    have order : (asks (w :: l) s).lif.injWaiting = (w.1, w.2) :: l := by simp [asks_eq, quiet]
    have short : (asks (w :: l) s).lif.injQueue.length < Config.injectionDepth := by
      simp only [asks_eq, State.onLif_lif, Config.injectionDepth]
      omega
    have rest : joinOp w.1 w.2 ((asks (w :: l) s).onLif fun f => { f with injWaiting := l }) = asks l (joinOp w.1 w.2 s) := by
      have same : (asks (w :: l) s).onLif (fun f => { f with injWaiting := l }) = s.onLif fun f => { f with injWaiting := l } := by
        simp [asks_eq, State.onLif]
      rw [same, alone w List.mem_cons_self, asks_eq, ]
      simp [State.onLif, calm]
    rw [settle_cons order short, rest]
    exact ih _ (fun v hv => alone v (List.mem_cons_of_mem w hv)) calm (by rw [joinOp_length]; omega)

theorem joinsAlone_eventRecord (bytes : List Byte) : JoinsAlone (.eventRecord bytes) := fun _ _ _ => rfl

theorem joinsAlone_eventsLostRecord (bytes : List Byte) (k : Option EventKind) :
    JoinsAlone (.eventsLostRecord bytes k) := fun _ _ _ => rfl

theorem joinsAlone_indices (mark : Bool) : JoinsAlone (.indices mark) := fun _ _ _ => rfl

theorem joinsAlone_commandStatus (n : Nat) (bytes : List Byte) : JoinsAlone (.commandStatus n bytes) := fun _ _ _ => rfl

/-! ## An event taken -/

/-- The request of a block that no request before it is of, is the block's oldest. -/
theorem oldest_split {before after : List EventReq} {q : EventReq} (first : ∀ p ∈ before, p.block ≠ q.block) :
    (before ++ q :: after).find? (fun p => p.block == q.block) = some q ∧
      (before ++ q :: after).eraseP (fun p => p.block == q.block) = before ++ after := by
  have none : ∀ p ∈ before, ¬(p.block == q.block) = true := fun p hp => by simpa using first p hp
  constructor
  · rw [List.find?_append, List.find?_eq_none.mpr none]
    simp
  · rw [List.eraseP_append_right _ none]
    simp

/-- `s` with the event list `l`, the report writer serving block `b` (R183). -/
def takenFrom (b : Block) (l : List EventReq) (s : State) : State :=
  { s with rpw := { s.rpw with events := l, serving := some b } }

/-- What the report writer does with a taken event: it asks for the requests of `l`, from `u` on. -/
structure Records (q : EventReq) (t : State) (l : List (Block × InjOp)) (u : State) : Prop where
  asked : (if t.rpw.indicesSet then recordEvent q t else recordEarly q t) = asks l u
  alone : ∀ w ∈ l, JoinsAlone w.2
  short : l.length ≤ 4
  lif : u.lif = t.lif
  events : u.rpw.events = t.rpw.events
  exec : u.rpw.exec = t.rpw.exec
  result : u.rpw.result = t.rpw.result
  done : u.rpw.done = t.rpw.done
  site : u.site = t.site
  area : (joins l u).areaBase = t.areaBase

theorem asks_rpw (l : List (Block × InjOp)) (s : State) : (asks l s).rpw = s.rpw := by rw [asks_eq]; rfl

theorem asks_site (l : List (Block × InjOp)) (s : State) : (asks l s).site = s.site := by rw [asks_eq]; rfl

/-- The requests of an event taken join, and the status write of its command where it was the last the command owed (R180,
R181). -/
theorem exec_eventTake {s : State} {q : EventReq} {before after : List EventReq} (ready : Ready 5 s)
    (split : s.rpw.events = before ++ q :: after) (first : ∀ p ∈ before, p.block ≠ q.block) {l : List (Block × InjOp)}
    {u : State} (h : Records q (takenFrom q.block (before ++ after) s) l u) :
    (∀ st, q.ofCommand = true → s.rpw.exec = .executing → s.rpw.result = some st →
      (∀ p ∈ before ++ after, p.ofCommand = false) → exec (.eventTake q.block) s = .next (injected (statusEntry st s)
        { joins l u with rpw := { (joins l u).rpw with exec := .writingBack } })) ∧
    (q.ofCommand = false ∨ s.rpw.exec ≠ .executing ∨ s.rpw.result = none ∨ (∃ p ∈ before ++ after, p.ofCommand = true) →
      exec (.eventTake q.block) s = .next (joins l u)) := by
  obtain ⟨asked, alone, short, lif, events, executing, result, done, site, area⟩ := h
  obtain ⟨found, erased⟩ := oldest_split (after := after) first
  have oldest : s.oldestEvent q.block = some q := by rw [State.oldestEvent, split, found]
  have due : s.eventDue q.block = true := by
    simp [State.eventDue, ready.released, (blocked_quiet s .rpw ready.quiet).1, oldest]
  have takes : eventTake q.block s = if q.ofCommand then writeStatus (asks l u) else asks l u := by
    rw [eventTake, oldest, ← asked, takenFrom, ← erased, ← split]
    rfl
  have leads : exec (.eventTake q.block) s = .next (settle (if q.ofCommand then writeStatus (asks l u) else asks l u)) := by
    change Host.Outcome.next (stepWhen (s.eventDue q.block) (eventTake q.block) s) = _
    rw [due, stepWhen_true, takes]
  have quiet : u.lif.injWaiting = [] := lif ▸ ready.quiet
  have room : u.lif.injQueue.length + 5 ≤ 16 := lif ▸ ready.room
  constructor
  · intro st of running has last
    have none : ((before ++ after).any fun p => p.ofCommand) = false := by
      rw [List.any_eq_false]
      exact fun p hp => by simp [last p hp]
    have asksStatus : writeStatus (asks l u) =
        asks (l ++ [(.rpw, .commandStatus (s.rpw.done.toNat % 256) (statusBytes st s.site))]) u := by
      have owes : (asks l u).eventsOwed = false := by rw [State.eventsOwed, asks_rpw, events]; exact none
      have res : (asks l u).rpw.result = some st := by rw [asks_rpw, result]; exact has
      have exe : (asks l u).rpw.exec = .executing := by rw [asks_rpw, executing]; exact running
      have dn : (asks l u).rpw.done = s.rpw.done := by rw [asks_rpw, done]; rfl
      have st_ : (asks l u).site = s.site := by rw [asks_site, site]; rfl
      have order : asks (l ++ [(.rpw, .commandStatus (s.rpw.done.toNat % 256) (statusBytes st s.site))]) u =
          (asks l u).ask .rpw (.commandStatus (s.rpw.done.toNat % 256) (statusBytes st s.site)) := List.foldl_append ..
      rw [order]
      simp only [writeStatus, res, exe, owes]
      exact (if_pos ⟨trivial, rfl⟩).trans (by rw [dn, st_])
    have all : ∀ w ∈ l ++ [(Block.rpw, InjOp.commandStatus (s.rpw.done.toNat % 256) (statusBytes st s.site))],
        JoinsAlone w.2 := by
      intro w hw
      rcases List.mem_append.mp hw with old | new
      · exact alone w old
      · rw [List.mem_singleton.mp new]
        exact joinsAlone_commandStatus _ _
    have status : statusEntry st s = areaWrite (joins l u) .rpw (0x1000 + 64 * (s.rpw.done.toNat % 256))
        [packBeat 1 (statusBytes st s.site)] false false .commandStatus := by
      rw [areaWrite, area]
      rfl
    rw [leads, if_pos of, asksStatus, (settle_asks _ u all quiet (by
      rw [List.length_append, List.length_singleton]
      omega)).1, joins, List.foldl_append, status]
    rfl
  · intro others
    have settles := (settle_asks l u alone quiet (by omega)).1
    by_cases of : q.ofCommand = true
    · have keeps : writeStatus (asks l u) = asks l u := by
        rcases others with off | idle | none | ⟨p, hp, owed⟩
        · exact absurd (of.symm.trans off) Bool.noConfusion
        · unfold writeStatus
          split
          · refine if_neg fun running => idle ?_
            rw [← running.1, asks_rpw, executing]
            rfl
          · rfl
        · have res : (asks l u).rpw.result = .none := by rw [asks_rpw, result]; exact none
          simp only [writeStatus, res]
        · unfold writeStatus
          split
          · refine if_neg fun running => ?_
            have some : (asks l u).eventsOwed = true := by
              rw [State.eventsOwed, asks_rpw, events]
              exact List.any_eq_true.mpr ⟨p, hp, owed⟩
            simp [some] at running
          · rfl
      rw [leads, if_pos of, keeps, settles]
    · rw [leads, if_neg of, settles]

/-- The entry of an event record at index `E` (R183). -/
def eventSlot (E : Word) (bytes : List Byte) (s : State) : InjEntry :=
  { areaEntry .rpw (0x10000 + 32 * (E.toNat % 1024)) (beatsOf bytes) false s with eventMark := true }

/-- `s` with E one higher (R183). -/
def evRaised (s : State) : State := { s with rpw := { s.rpw with evProd := s.rpw.evProd + 1 } }

/-- `s` with no lost event (R184). -/
def unlost (s : State) : State := { s with rpw := { s.rpw with lost := 0, firstLost := none, lastLost := none } }

/-- What the report writer asks for to write an event (R183, R189). -/
def eventAsks (bytes : List Byte) : List (Block × InjOp) := [(.rpw, .eventRecord bytes), (.rpw, .indices true)]

/-- What the report writer asks for to tell lost events, the next one lost where `k` names its kind (R184, R189). -/
def lostAsks (bytes : List Byte) (k : Option EventKind) : List (Block × InjOp) :=
  [(.rpw, .eventsLostRecord bytes k), (.rpw, .indices true)]

theorem joinsAlone_eventAsks (bytes : List Byte) : ∀ w ∈ eventAsks bytes, JoinsAlone w.2 := by
  simp [eventAsks, joinsAlone_eventRecord, joinsAlone_indices]

theorem joinsAlone_lostAsks (bytes : List Byte) (k : Option EventKind) : ∀ w ∈ lostAsks bytes k, JoinsAlone w.2 := by
  simp [lostAsks, joinsAlone_eventsLostRecord, joinsAlone_indices]

theorem evRaised_injected (e : InjEntry) (s : State) : evRaised (injected e s) = injected e (evRaised s) := rfl

theorem eventSlot_injected (E : Word) (bytes : List Byte) (e : InjEntry) (s : State) :
    eventSlot E bytes (injected e s) = eventSlot E bytes s := rfl

/-- An event record joins at index E with its section behind it (R183, R189). -/
theorem joins_event (bytes : List Byte) (s : State) :
    joins (eventAsks bytes) s =
      injected (indicesEntry true (evRaised s)) (injected (eventSlot s.rpw.evProd bytes s) (evRaised s)) := rfl

/-- An EVENTS_LOST record joins at index E, the lost events told, with its section behind it (R184, R189). -/
theorem joins_lost (bytes : List Byte) (s : State) :
    joins (lostAsks bytes none) s =
      injected (indicesEntry true (unlost (evRaised s))) (injected (eventSlot s.rpw.evProd bytes s) (unlost (evRaised s))) := rfl

/-- An EVENTS_LOST record joins at index E, and the event behind it is lost (R184, R189). -/
theorem joins_lost_again (bytes : List Byte) (k : EventKind) (s : State) :
    let v := (unlost (evRaised s)).onRpw (loseEvent k)
    joins (lostAsks bytes (some k)) s =
      injected (indicesEntry true v) (injected (eventSlot s.rpw.evProd bytes s) v) := rfl

/-- The first event lost since the last EVENTS_LOST record (R184). -/
theorem loseEvent_unlost (k : EventKind) (s : State) : (unlost s).onRpw (loseEvent k) =
    { s with rpw := { s.rpw with lost := 1, firstLost := some k, lastLost := some k } } := by
  simp [unlost, loseEvent, State.onRpw, satInc, Config.max32]

/-- Requests of which the first join before the others. -/
theorem joins_append (l m : List (Block × InjOp)) (s : State) : joins (l ++ m) s = joins m (joins l s) := List.foldl_append ..

/-- Settles O49: the cases of R184's table and of the early list. -/
theorem eventIsWrittenOrCounted : Obligations.EventIsWrittenOrCounted := by
  intro s q before after ready split first free u slot lostRec E leaves
  have leave {l : List (Block × InjOp)} {v : State} (h : Records q u l v) : leaves (joins l v) :=
    exec_eventTake ready split first h
  have free_ : u.eventFree = free := rfl
  have records (set : s.rpw.indicesSet = true) : (if u.rpw.indicesSet then recordEvent q u else recordEarly q u) =
      recordEvent q u := if_pos set
  have early (unset : s.rpw.indicesSet = false) : (if u.rpw.indicesSet then recordEvent q u else recordEarly q u) =
      recordEarly q u := if_neg (by rw [show u.rpw.indicesSet = false from unset]; exact Bool.false_ne_true)
  refine ⟨fun unset place => ?_, fun unset full => ?_, fun set none place => ?_, fun set some places => ?_,
    fun set some one => ?_, fun set full => ?_⟩
  · refine leave (l := []) ⟨?_, nofun, by decide, rfl, rfl, rfl, rfl, rfl, rfl, rfl⟩
    rw [early unset]
    exact congrArg (fun r => { u with rpw := r }) (if_pos place)
  · refine leave (l := []) ⟨?_, nofun, by decide, rfl, rfl, rfl, rfl, rfl, rfl, rfl⟩
    rw [early unset]
    exact congrArg (fun r => { u with rpw := r }) (if_neg (Nat.not_lt.mpr full))
  · have goes := leave (l := eventAsks (eventBytes q s.site)) (v := u)
      ⟨(records set).trans ((if_neg (by rw [free_]; omega)).trans (if_pos none)), joinsAlone_eventAsks _, by simp [eventAsks],
        rfl, rfl, rfl, rfl, rfl, rfl, rfl⟩
    rw [joins_event] at goes
    exact goes
  · have alone : ∀ w ∈ lostAsks lostRec .none ++ eventAsks (eventBytes q s.site), JoinsAlone w.2 := fun w hw =>
      (List.mem_append.mp hw).elim (joinsAlone_lostAsks _ _ w) (joinsAlone_eventAsks _ w)
    have goes := leave (l := lostAsks lostRec .none ++ eventAsks (eventBytes q s.site)) (v := u)
      ⟨(records set).trans ((if_neg (by rw [free_]; omega)).trans
        ((if_neg (Nat.pos_iff_ne_zero.mp some)).trans (if_neg (by rw [free_]; omega)))),
        alone, by simp [eventAsks, lostAsks], rfl, rfl, rfl, rfl, rfl, rfl, rfl⟩
    rw [joins_append, joins_lost, joins_event] at goes
    simp only [evRaised_injected, indicesEntry_injected, eventSlot_injected] at goes
    exact goes
  · have goes := leave (l := lostAsks lostRec (.some q.kind)) (v := u)
      ⟨(records set).trans ((if_neg (by rw [free_]; omega)).trans ((if_neg (Nat.pos_iff_ne_zero.mp some)).trans (if_pos one))),
        joinsAlone_lostAsks _ _, by simp [lostAsks], rfl, rfl, rfl, rfl, rfl, rfl, rfl⟩
    rw [joins_lost_again, loseEvent_unlost] at goes
    exact goes
  · exact leave (l := [(.rpw, .indices true)]) (v := u.onRpw (loseEvent q.kind))
      ⟨(records set).trans (if_pos full), by simp [joinsAlone_indices], by decide, rfl, rfl, rfl, rfl, rfl, rfl, rfl⟩

end Sys2Proof.Machine
end

section
/-! # The part states (09_control_area_configuration_and_start_up.md, R171 to R175)

The end of SUSPENDING, and area initialisation up to the state it ends in. -/

namespace Sys2Proof.Machine

open Sys2Proof.Claims

/-! ## A change of the part state (R175) -/

/-- `s` with the part in state `new`, its STATE_CHANGED raised. -/
def changed (new : PartState) (cause : ChangeCause) (s : State) : State :=
  raised [event .ccu .stateChanged .part (partCode new) (partCode s.ccu.part) s.ccu.cfg.restartGen (changeCode cause)]
    { s with ccu := { s.ccu with part := new, lastChange := s.site } }

theorem changePart_eq (new : PartState) (cause : ChangeCause) (s : State) :
    changePart new cause s = (changed new cause s).ask .ccu (.partRecord new s.site) := rfl

theorem joinOp_partRecord (part : PartState) (t : Word64) (s : State) :
    joinOp .ccu (.partRecord part t) s = injected (partEntry (partCode part) s.ccu.cfg.restartGen t s) s := rfl

/-- A part record asked for where none waits is written. -/
theorem settle_partRecord {s : State} (part : PartState) (t : Word64) (quiet : s.lif.injWaiting = [])
    (room : s.lif.injQueue.length < Config.injectionDepth) :
    settle (s.ask .ccu (.partRecord part t)) = injected (partEntry (partCode part) s.ccu.cfg.restartGen t s) s := by
  rw [settle_ask quiet room, joinOp_partRecord]
  exact settle_idle _ quiet

/-! ## The rings at the entry to SUSPENDED (R29, R99, R173) -/

theorem clearSlots_buffer_eq (r : Fin 16) (s : State) (b : Fin 64) : (clearSlots r s).buffer b =
    if fillingFor r (s.buffer b) then { s.buffer b with st := .free } else s.buffer b := Vector.getElem_map _ b.isLt

theorem clearSlots_tracker_eq (r : Fin 16) (s : State) (k : Fin 8) : (clearSlots r s).tracker k =
    if (s.tracker k).ring = r then { s.tracker k with st := .free } else s.tracker k := Vector.getElem_map _ k.isLt

/-- What stopping the rings of `l` leads to: from `s` to `t`. -/
structure Stopped (l : List (Fin 16)) (s t : State) : Prop where
  same : SameBut true true false false false false false false false s t
  waiting : t.lif.injWaiting = s.lif.injWaiting
  queue : t.lif.injQueue = s.lif.injQueue
  ring : ∀ r, ∃ m, t.ring r = { s.ring r with slotMap := m }
  cleared : ∀ r, r ∈ l ∨ (s.ring r).slotMap = [] → (t.ring r).slotMap = []
  filling : ∀ r b sl i, r ∈ l ∨ (s.buffer b).st ≠ .filling r sl i → (t.buffer b).st ≠ .filling r sl i
  trackerRing : ∀ k, (t.tracker k).ring = (s.tracker k).ring
  trackers : ∀ k, (s.tracker k).ring ∈ l ∨ (s.tracker k).st = .free → (t.tracker k).st = .free
  producers : ∀ r : Fin 16, r ∈ l ∨ s.lif.prodShadow[r] = [] → t.lif.prodShadow[r] = []
  consumers : ∀ r : Fin 16, r ∈ l ∨ s.lif.consShadow[r] = [] → t.lif.consShadow[r] = []

theorem stopped_nil (s : State) : Stopped [] s s := by
  refine ⟨by simp [SameBut], rfl, rfl, fun r => ⟨_, rfl⟩, ?_, ?_, fun _ => rfl, ?_, ?_, ?_⟩ <;> simp

/-- One ring stopped. -/
theorem stopped_suspendRing (r : Fin 16) (s : State) : Stopped [r] s (suspendRing r s) where
  same := by simp [SameBut, suspendRing, closeWindows, clearSlots, setMidway, freeRingTrackers, freeRingBuffers]
  waiting := rfl
  queue := rfl
  ring q := by
    by_cases same : q = r
    · exact ⟨[], same ▸ clearSlots_ring r s⟩
    · exact ⟨_, clearSlots_ring_ne s same⟩
  cleared q h := by
    by_cases same : q = r
    · exact same ▸ congrArg Ring.slotMap (clearSlots_ring r s)
    · exact (congrArg Ring.slotMap (clearSlots_ring_ne s same)).trans (h.resolve_left (by simpa using same))
  filling q b sl i h := by
    have freed : (suspendRing r s).buffer b = _ := clearSlots_buffer_eq r s b
    by_cases same : q = r
    · exact same ▸ clearSlots_buffer r s b sl i
    · rw [freed]
      split
      · exact nofun
      · exact h.resolve_left (by simpa using same)
  trackerRing k := by
    have freed : (suspendRing r s).tracker k = _ := clearSlots_tracker_eq r s k
    rw [freed]
    split <;> rfl
  trackers k h := by
    have freed : (suspendRing r s).tracker k = _ := clearSlots_tracker_eq r s k
    rw [freed]
    split
    · rfl
    · next other => exact h.resolve_left (by simpa using other)
  producers q h := by
    by_cases same : q = r
    · exact same ▸ (closeWindows_shadows r (clearSlots r s)).1
    · exact (upd_ne _ _ _ _ same).trans (h.resolve_left (by simpa using same))
  consumers q h := by
    by_cases same : q = r
    · exact same ▸ (closeWindows_shadows r (clearSlots r s)).2
    · exact (upd_ne _ _ _ _ same).trans (h.resolve_left (by simpa using same))

theorem sameBut_trans {a b c d e f g h i : Bool} {s t u : State} (x : SameBut a b c d e f g h i s t)
    (y : SameBut a b c d e f g h i t u) : SameBut a b c d e f g h i s u := by
  obtain ⟨p, n, l, m, td, cs, rf, cv, tb, cc, rp⟩ := x
  obtain ⟨p', n', l', m', td', cs', rf', cv', tb', cc', rp'⟩ := y
  exact ⟨p'.trans p, n'.trans n, fun z => (l' z).trans (l z), fun z => (m' z).trans (m z), fun z => (td' z).trans (td z),
    fun z => (cs' z).trans (cs z), fun z => (rf' z).trans (rf z), fun z => (cv' z).trans (cv z),
    fun z => (tb' z).trans (tb z), fun z => (cc' z).trans (cc z), fun z => (rp' z).trans (rp z)⟩

/-- The rings of a list stopped, one behind the other. -/
theorem stopped_foldl (l : List (Fin 16)) : ∀ s : State, Stopped l s (l.foldl (fun s r => suspendRing r s) s) := by
  induction l with
  | nil => exact stopped_nil
  | cons r l ih =>
    intro s
    have first := stopped_suspendRing r s
    have rest := ih (suspendRing r s)
    have later {p : Prop} {q : Fin 16} (h : q ∈ r :: l ∨ p) : q ∈ l ∨ (q ∈ [r] ∨ p) := by
      rcases h with h | h
      · rcases List.mem_cons.mp h with rfl | h
        · exact .inr (.inl List.mem_cons_self)
        · exact .inl h
      · exact .inr (.inr h)
    constructor
    · exact sameBut_trans first.same rest.same
    · exact rest.waiting.trans first.waiting
    · exact rest.queue.trans first.queue
    · intro q
      obtain ⟨m, hm⟩ := first.ring q
      obtain ⟨m', hm'⟩ := rest.ring q
      exact ⟨m', by rw [List.foldl_cons, hm', hm]⟩
    · exact fun q h => rest.cleared q ((later h).imp_right (first.cleared q))
    · exact fun q b sl i h => rest.filling q b sl i ((later h).imp_right (first.filling q b sl i))
    · exact fun k => (rest.trackerRing k).trans (first.trackerRing k)
    · intro k h
      refine rest.trackers k ?_
      rw [first.trackerRing]
      exact (later h).imp_right (first.trackers k)
    · exact fun q h => rest.producers q ((later h).imp_right (first.producers q))
    · exact fun q h => rest.consumers q ((later h).imp_right (first.consumers q))

/-- Stopping rings commutes with a request that waits. -/
theorem foldl_suspendRing_ask (b : Block) (op : InjOp) (l : List (Fin 16)) : ∀ s : State,
    l.foldl (fun s r => suspendRing r s) (s.ask b op) = (l.foldl (fun s r => suspendRing r s) s).ask b op := by
  induction l with
  | nil => exact fun _ => rfl
  | cons r l ih => exact fun s => ih (suspendRing r s)

/-- The state SUSPENDING ends in, the part record waiting (R173 to R175). -/
theorem enterSuspended_eq {s v : State}
    (h : (List.finRange 16).foldl (fun s r => suspendRing r s) (changed .suspended .drained s) = v)
    (run : v.ccu.cfg.run = false) : enterSuspended s =
      (v.onCsv fun l => l.map fun c => { c with countdown := none }).ask .ccu (.partRecord .suspended s.site) := by
  rw [enterSuspended, changePart_eq, foldl_suspendRing_ask, h]
  exact if_neg (ne_true_of_eq_false run)

/-- Settles O51: the rings stopped, the countdowns cleared, and the part record behind them. -/
theorem suspendingDrains : Obligations.SuspendingDrains := by
  intro s ready suspending slots dispatch idle commits off
  obtain ⟨v, hv⟩ : ∃ v, (List.finRange 16).foldl (fun s r => suspendRing r s) (changed .suspended .drained s) = v := ⟨_, rfl⟩
  let w : State := v.onCsv fun l => l.map fun c => { c with countdown := none }
  have stopped : Stopped (List.finRange 16) (changed .suspended .drained s) v := hv ▸ stopped_foldl _ _
  obtain ⟨same, waiting, queue, ring, cleared, filling, -, trackers, producers, consumers⟩ := stopped
  obtain ⟨pending, pins, -, -, tdr, csv, rfm, cvm, tbs, ccu, rpw⟩ := same
  have all (r : Fin 16) : r ∈ List.finRange 16 := List.mem_finRange r
  have due : s.drained = true :=
    (drained_iff s).mpr ⟨ready.released, suspending, slots, dispatch, idle, commits, (blocked_quiet s .ccu ready.quiet).2.2⟩
  have ends : enterSuspended s = w.ask .ccu (.partRecord .suspended s.site) := enterSuspended_eq hv (by rw [ccu rfl]; exact off)
  have entry : partEntry (partCode .suspended) w.ccu.cfg.restartGen s.site w = partEntry 4 s.ccu.cfg.restartGen s.site s := by
    simp only [w, partEntry, areaEntry, State.areaBase, State.onCsv_ccu, State.onCsv_pins, ccu rfl, pins]
    rfl
  have leads : exec .suspendDrained s = .next (injected (partEntry 4 s.ccu.cfg.restartGen s.site s) w) := by
    change Host.Outcome.next (stepWhen s.drained enterSuspended s) = _
    rw [due, stepWhen_true, ends, settle_partRecord (s := w) _ _ (waiting.trans ready.quiet) (by
      rw [State.onCsv_lif, queue]
      exact ready.room), entry]
  refine ⟨_, leads, ?_, ?_, fun r => ⟨cleared r (.inl (all r)), ?_⟩, fun b r sl i => filling r b sl i (.inl (all r)),
    fun k => trackers k (.inl (all _)), fun k => ?_, fun r => ⟨producers r (.inl (all r)), consumers r (.inl (all r))⟩, ?_, ?_⟩
  · exact ⟨pending, pins, nofun, nofun, tdr, nofun, rfm, cvm, tbs, nofun, nofun⟩
  · exact ccu rfl
  · obtain ⟨m, hm⟩ := ring r
    change (v.ring r).state = _ ∧ (v.ring r).prod = _ ∧ (v.ring r).cons = _ ∧ (v.ring r).desc = _
    rw [hm]
    exact ⟨rfl, rfl, rfl, rfl⟩
  · have mapped : w.csv[k] = { v.csv[k] with countdown := none } := Vector.getElem_map _ k.isLt
    refine mapped.trans ?_
    rw [csv rfl]
    rfl
  · refine (rpw rfl).trans ?_
    rw [changed, suspending]
    rfl
  · change v.lif.injQueue ++ _ = _
    rw [queue]
    rfl

end Sys2Proof.Machine
end

section
/-! # Area initialisation (09_control_area_configuration_and_start_up.md, R171, R172, R185)

What the joining of its requests keeps, whatever waits, and the status page, which fills an empty injection queue. -/

namespace Sys2Proof.Machine

open Sys2Proof.Claims

/-! ## What the requests of area initialisation keep -/

/-- A request that area initialisation makes, or that follows from one; with `early`, also an early event's record. -/
def ofInitialisation (early : Bool) : InjOp → Bool
  | .earlyRecord _ _ => early
  | .statusPage | .statusRest _ _ | .partRecord _ _ | .ringRecord _ | .baselineRead _ _ _ => true
  | _ => false

/-- From `s` to `t` the report writer kept all but its event requests (and E, with `early`), the directory, the reefer records
and the grid stayed, and no request of another kind was made. -/
structure KeepsIndices (early : Bool) (s t : State) : Prop where
  report : { t.rpw with events := [], evProd := 0 } = { s.rpw with events := [], evProd := 0 }
  events : early = false → t.rpw.evProd = s.rpw.evProd
  tdr : t.tdr = s.tdr
  recs : t.rfm.recs = s.rfm.recs
  cvm : t.cvm = s.cvm
  kept : (∀ k : Fin 3, s.ccu.initKept[k] = none) → ∀ k : Fin 3, t.ccu.initKept[k] = none
  asked : (∀ w ∈ s.lif.injWaiting, ofInitialisation early w.2 = true) → ∀ w ∈ t.lif.injWaiting, ofInitialisation early w.2 = true

section
variable {early : Bool} {s t u : State}

@[simp] theorem keepsIndices_refl (s : State) : KeepsIndices early s s := ⟨rfl, fun _ => rfl, rfl, rfl, rfl, id, id⟩

theorem KeepsIndices.trans (h : KeepsIndices early s t) (k : KeepsIndices early t u) : KeepsIndices early s u :=
  ⟨k.report.trans h.report, fun e => (k.events e).trans (h.events e), k.tdr.trans h.tdr, k.recs.trans h.recs,
    k.cvm.trans h.cvm, k.kept ∘ h.kept, k.asked ∘ h.asked⟩

theorem KeepsIndices.foldl {α : Type} {f : State → α → State} (h : KeepsIndices early s t)
    (step : ∀ v a, KeepsIndices early v (f v a)) (l : List α) : KeepsIndices early s (l.foldl f t) := by
  induction l generalizing t with
  | nil => exact h
  | cons a l ih => exact ih (h.trans (step t a))

/-- What a step may change of the ring monitor, the cranes, the drain, the sweep and the link interface. -/
theorem keepsIndices_step (rpw : { u.rpw with events := [] } = { t.rpw with events := [] }) (tdr : u.tdr = t.tdr)
    (recs : u.rfm.recs = t.rfm.recs) (cvm : u.cvm = t.cvm) (kept : u.ccu.initKept = t.ccu.initKept)
    (asked : ∀ w ∈ u.lif.injWaiting, w ∈ t.lif.injWaiting ∨ ofInitialisation early w.2 = true) : KeepsIndices early t u where
  report := congrArg (fun r : Rpw => { r with evProd := 0 }) rpw
  events _ := by
    have same := congrArg Rpw.evProd rpw
    exact same
  tdr := tdr
  recs := recs
  cvm := cvm
  kept h k := by rw [kept, h]
  asked h w hw := (asked w hw).elim (h w) id

theorem keepsIndices_ask (h : KeepsIndices early s t) (b : Block) {op : InjOp} (of : ofInitialisation early op = true) :
    KeepsIndices early s (t.ask b op) := by
  refine h.trans (keepsIndices_step rfl rfl rfl rfl rfl fun w hw => ?_)
  rw [State.ask_waiting] at hw
  refine (List.mem_append.mp hw).imp_right fun new => ?_
  rw [List.mem_singleton.mp new]
  exact of

theorem keepsIndices_onRing (h : KeepsIndices early s t) (r : Fin 16) (f : Ring → Ring) :
    KeepsIndices early s (t.onRing r f) := h.trans (keepsIndices_step rfl rfl rfl rfl rfl fun _ => .inl)

theorem keepsIndices_setRingState (h : KeepsIndices early s t) (r : Fin 16) (st : RingState) :
    KeepsIndices early s (setRingState r st t) := by
  unfold setRingState
  dsimp only
  split
  · exact keepsIndices_onRing h ..
  · exact keepsIndices_ask (keepsIndices_onRing h ..) _ rfl

/-- Of the requests that wait, a ring that is enabled anew drops its receipts (R27). -/
theorem keepsIndices_enterEnabling (r : Fin 16) : KeepsIndices early t (enterEnabling r t) := by
  have drops : KeepsIndices early t (clearSlots r (dropSlotInProgress r t)) :=
    keepsIndices_step rfl rfl rfl rfl rfl fun w hw => .inl (List.mem_of_mem_filter hw)
  have closes (u : State) : KeepsIndices early u (closeWindows r u) := keepsIndices_step rfl rfl rfl rfl rfl fun _ => .inl
  exact keepsIndices_ask (keepsIndices_ask (keepsIndices_setRingState ((keepsIndices_onRing drops ..).trans (closes _)) ..)
    _ rfl) _ rfl

theorem keepsIndices_testRing (r : Fin 16) : KeepsIndices early t (testRing r t) := by
  have closes (u : State) : KeepsIndices early u (closeWindows r u) := keepsIndices_step rfl rfl rfl rfl rfl fun _ => .inl
  unfold testRing
  split
  · exact keepsIndices_setRingState ((keepsIndices_onRing (keepsIndices_refl t) ..).trans (closes _)) ..
  · split
    · exact keepsIndices_enterEnabling r
    · exact keepsIndices_setRingState (closes t) ..

theorem keepsIndices_admitRing (r : Fin 16) : KeepsIndices early t (admitRing r t) := by
  unfold admitRing
  dsimp only
  split
  iterate 2
    split
    · exact keepsIndices_testRing r
    · exact keepsIndices_refl t
  · exact keepsIndices_testRing r
  · exact keepsIndices_testRing r
  · exact keepsIndices_refl t

theorem keepsIndices_changePart (new : PartState) (cause : ChangeCause) : KeepsIndices early t (changePart new cause t) :=
  keepsIndices_ask (s := t) (t := changed new cause t) (keepsIndices_step rfl rfl rfl rfl rfl fun _ => .inl) _ rfl

theorem keepsIndices_enterRunning (cause : ChangeCause) : KeepsIndices early t (enterRunning cause t) := by
  have admits : KeepsIndices early t (admitRings (changePart .running cause t)) :=
    (keepsIndices_changePart .running cause).foldl (fun v r => keepsIndices_admitRing r) _
  have cranes (u : State) (f : Vector Crane 32 → Vector Crane 32) : KeepsIndices early u (u.onCsv f) :=
    keepsIndices_step rfl rfl rfl rfl rfl fun _ => .inl
  have sweep (u : State) : KeepsIndices early u (resumeSweep u) := by
    unfold resumeSweep
    split
    · exact keepsIndices_step rfl rfl rfl rfl rfl fun _ => .inl
    · exact keepsIndices_refl u
  have drain (u : State) : KeepsIndices early u (resumeDrain u) := by
    unfold resumeDrain startDrain
    split
    · split
      · exact keepsIndices_step rfl rfl rfl rfl rfl fun _ => .inl
      · exact keepsIndices_step rfl rfl rfl rfl rfl fun _ => .inl
    · exact keepsIndices_refl u
  exact ((admits.trans (cranes _ _)).trans (sweep _)).trans (drain _)

/-- With no value kept none is handed on, and none is kept after (R171). -/
theorem handKeptIndices_none (h : ∀ k : Fin 3, s.ccu.initKept[k] = none) :
    handKeptIndices s = s.onCcu fun c => { c with initKept := Vector.replicate 3 none } := by
  unfold handKeptIndices
  simp only [h]
  exact List.foldl_fixed' (fun _ => rfl) _

/-- The end of area initialisation keeps the indices, where no value was kept. -/
theorem keepsIndices_finishInit (h : ∀ k : Fin 3, t.ccu.initKept[k] = none) : KeepsIndices early t (finishInit t) := by
  have ends : KeepsIndices early t (if t.ccu.cfg.run then enterRunning .initDone t else changePart .suspended .initDone t) := by
    split
    · exact keepsIndices_enterRunning .initDone
    · exact keepsIndices_changePart .suspended .initDone
  rw [finishInit, handKeptIndices_none (ends.kept h)]
  exact ends.trans ⟨rfl, fun _ => rfl, rfl, rfl, rfl, fun _ k => by simp, id⟩

theorem keepsIndices_join (h : KeepsIndices early s t) (e : InjEntry) : KeepsIndices early s (t.join e) :=
  h.trans (keepsIndices_step rfl rfl rfl rfl rfl fun _ => .inl)

theorem keepsIndices_askFirst (h : KeepsIndices early s t) (b : Block) {op : InjOp} (of : ofInitialisation early op = true) :
    KeepsIndices early s (t.askFirst b op) := by
  refine h.trans (keepsIndices_step rfl rfl rfl rfl rfl fun w hw => ?_)
  rcases List.mem_cons.mp hw with rfl | old
  · exact .inr of
  · exact .inl old

/-- A request of area initialisation keeps the indices as it joins. -/
theorem keepsIndices_joinOp (h : ∀ k : Fin 3, t.ccu.initKept[k] = none) (b : Block) {op : InjOp}
    (of : ofInitialisation early op = true) : KeepsIndices early t (joinOp b op t) := by
  have here := keepsIndices_refl (early := early) t
  cases op with
  | earlyRecord bytes last =>
    have joins : KeepsIndices early t (joinEvent bytes t) :=
      ⟨rfl, fun off => absurd (of.symm.trans off) Bool.noConfusion, rfl, rfl, rfl, id, id⟩
    cases last
    · exact joins
    · exact keepsIndices_ask joins .ccu rfl
  | statusPage => exact keepsIndices_askFirst (keepsIndices_join here _) b rfl
  | statusRest off bytes =>
    unfold joinOp
    dsimp only
    split
    · exact (keepsIndices_join here _).trans (keepsIndices_finishInit h)
    · exact keepsIndices_askFirst (keepsIndices_join here _) b rfl
  | partRecord | ringRecord | baselineRead => exact keepsIndices_join here _
  | receipt | initRead | eventRecord | eventsLostRecord | indices | doneIndices | digestRecord | commandStatus | snapOpening
  | snapRow | snapFields | snapClosing | refresh | refreshRest => exact absurd of Bool.noConfusion

/-- Requests of area initialisation keep the indices as they join. -/
theorem keepsIndices_settle (h : ∀ k : Fin 3, t.ccu.initKept[k] = none)
    (asked : ∀ w ∈ t.lif.injWaiting, ofInitialisation early w.2 = true) : KeepsIndices early t (settle t) := by
  rw [settle]
  generalize Config.injectionDepth - t.lif.injQueue.length = n
  induction n generalizing t with
  | zero => exact keepsIndices_refl t
  | succ n ih =>
    unfold settleN
    split
    · exact keepsIndices_refl t
    · next w rest waits =>
      have takes : KeepsIndices early t (t.onLif fun l => { l with injWaiting := rest }) :=
        keepsIndices_step rfl rfl rfl rfl rfl fun v hv => .inl (by rw [waits]; exact List.mem_cons_of_mem w hv)
      have joins := takes.trans (keepsIndices_joinOp (takes.kept h) w.1 (asked w (by rw [waits]; exact List.mem_cons_self)))
      exact joins.trans (ih (joins.kept h) (joins.asked asked))

theorem keepsIndices_askEarly (l : List (List Byte)) (none : early = false → l = []) :
    KeepsIndices early t (askEarly l t) := by
  have here (u : State) := keepsIndices_refl (early := early) u
  cases early with
  | false => exact none rfl ▸ keepsIndices_ask (here t) .ccu rfl
  | true =>
    induction l generalizing t with
    | nil => exact keepsIndices_ask (here t) .ccu rfl
    | cons b l ih =>
      cases l with
      | nil => exact keepsIndices_ask (here t) .rpw rfl
      | cons c l => exact (keepsIndices_ask (here t) .rpw rfl).trans (ih nofun)

end

/-! ## The status page (R171; log 61) -/

theorem padTo_length (n : Nat) (l : List Byte) : (padTo n l).length = max n l.length := by
  simp only [padTo, List.length_append, List.length_replicate]
  omega

theorem partRecordBytes_length (part : PartState) (t : Word64) (s : State) : (partRecordBytes part t s).length = 8 := by
  simp [partRecordBytes, siteBytes_length]

theorem indexSection_length (s : State) : (indexSection s).length = 16 := by simp [indexSection, satBytes_length]

theorem snapSection_length (s : State) : (snapSection s).length = 6 := by simp [snapSection]

theorem ringSection_length (s : State) : (ringSection s).length = 256 := by
  have each (g : Ring) : (ringRecordBytes g).length = 16 := by simp [ringRecordBytes, satBytes_length]
  rw [ringSection, length_flatMap_const each, Vector.length_toList]

theorem statusPage_length (s : State) : (statusPage s).length = 4096 := by
  simp [statusPage, padTo_length, partRecordBytes_length, indexSection_length, snapSection_length, sweepSection_length,
    directorySection_length, reeferSection_length, coverageSection_length, ringSection_length, craneSection_length]

/-- The rest of the status page joins entry by entry, and area initialisation ends behind it (R16, R171). -/
theorem settle_statusRest (n : Nat) : ∀ (off : Nat) (bytes : List Byte) (s : State),
    bytes.length = 256 * (n + 1) → s.lif.injWaiting = [] → s.lif.injQueue.length + (n + 1) ≤ 16 →
    settle (joinOp .ccu (.statusRest off bytes) s) =
      settle (finishInit (injectedAll (chunkEntries .ccu off bytes (n + 1) s) s)) := by
  induction n with
  | zero =>
    intro off bytes s length _ _
    have none : bytes.drop 256 = [] := List.drop_eq_nil_of_le (by omega)
    have joins : joinOp .ccu (.statusRest off bytes) s =
        finishInit (injected (areaEntry .ccu (0x8000 + off) (beatsOf (bytes.take 256)) false s) s) := if_pos none
    rw [joins, chunkEntries_succ]
    rfl
  | succ n ih =>
    intro off bytes s length quiet room
    let e := areaEntry .ccu (0x8000 + off) (beatsOf (bytes.take 256)) false s
    have rest : bytes.drop 256 ≠ [] := by
      rw [ne_eq, List.drop_eq_nil_iff]
      omega
    have queue : (injected e s).lif.injQueue.length = s.lif.injQueue.length + 1 := List.length_append
    have joins : joinOp .ccu (.statusRest off bytes) s = (injected e s).ask .ccu (.statusRest (off + 256) (bytes.drop 256)) :=
      (if_neg rest).trans (askFirst_quiet (s := injected e s) _ _ quiet)
    rw [joins, settle_ask (s := injected e s) quiet (by rw [queue, Config.injectionDepth]; omega),
      ih (off + 256) (bytes.drop 256) (injected e s) (by rw [List.length_drop]; omega) quiet (by omega), chunkEntries_succ .ccu off]
    exact congrArg (fun v => settle (finishInit v)) (injectedAll_cons e _ s)

/-! ## The end of area initialisation (R171, R172) -/

/-- The part goes to SUSPENDED where RUN is off (R171). -/
theorem finishInit_suspended {s : State} (off : s.ccu.cfg.run = false) (free : ∀ k : Fin 3, s.ccu.initKept[k] = none) :
    finishInit s = ((changed .suspended .initDone s).onCcu fun c => { c with initKept := Vector.replicate 3 none }).ask .ccu
      (.partRecord .suspended s.site) := by
  have goes : finishInit s = handKeptIndices (changePart .suspended .initDone s) :=
    congrArg handKeptIndices (if_neg (ne_true_of_eq_false off))
  rw [goes, changePart_eq, handKeptIndices_none (by exact free)]
  rfl

/-- A part with no ring to take in, no bound crane and no start kept has only its own state to change at the entry to RUNNING
(R172). -/
theorem enterRunning_calm {s : State} (cause : ChangeCause)
    (rings : ∀ r, (s.ring r).state = .disabled ∧ (s.ring r).desc.enable = false) (cranes : ∀ k, (s.crane k).st = .unbound)
    (drain : s.rfm.startKept = false) (sweep : s.tbs.restart = false ∨ s.tbs.sweeping = true) :
    enterRunning cause s = changePart .running cause s := by
  have passes (r : Fin 16) : admitRing r (changePart .running cause s) = changePart .running cause s := by
    obtain ⟨disabled, off⟩ := rings r
    have ring : (changePart .running cause s).ring r = s.ring r := rfl
    unfold admitRing
    simp [ring, disabled, off]
  have admits : admitRings (changePart .running cause s) = changePart .running cause s := List.foldl_fixed' passes _
  have unbound (t : Nat) : s.csv.map (resumeCrane t) = s.csv := by
    ext1 i hi
    rw [Vector.getElem_map, resumeCrane, show s.csv[i].st = .unbound from cranes ⟨i, hi⟩]
  have still : ((changePart .running cause s).onCsv fun v => v.map (resumeCrane (changePart .running cause s).now)) =
      changePart .running cause s := congrArg (fun v => { changePart .running cause s with csv := v }) (unbound _)
  have sweeps : resumeSweep (changePart .running cause s) = changePart .running cause s := by
    refine if_neg fun ⟨idle, restart⟩ => ?_
    rcases sweep with off | on
    · exact Bool.false_ne_true (off.symm.trans restart)
    · have on_ : (changePart .running cause s).tbs.sweeping = true := on
      simp [on_] at idle
  have drains : resumeDrain (changePart .running cause s) = changePart .running cause s :=
    if_neg (ne_true_of_eq_false drain)
  unfold enterRunning
  dsimp only
  rw [admits, still, sweeps, drains]

/-- The part goes to RUNNING where RUN is on (R171, R172). -/
theorem finishInit_running {s : State} (on : s.ccu.cfg.run = true) (free : ∀ k : Fin 3, s.ccu.initKept[k] = none)
    (rings : ∀ r, (s.ring r).state = .disabled ∧ (s.ring r).desc.enable = false) (cranes : ∀ k, (s.crane k).st = .unbound)
    (drain : s.rfm.startKept = false) (sweep : s.tbs.restart = false ∨ s.tbs.sweeping = true) :
    finishInit s = ((changed .running .initDone s).onCcu fun c => { c with initKept := Vector.replicate 3 none }).ask .ccu
      (.partRecord .running s.site) := by
  have goes : finishInit s = handKeptIndices (enterRunning .initDone s) := congrArg handKeptIndices (if_pos on)
  rw [goes, enterRunning_calm .initDone rings cranes drain sweep, changePart_eq, handKeptIndices_none (by exact free)]
  rfl

/-- The indices of `s` as area initialisation sets them, the early events gone (R171, R185). -/
def indexed (p e d : Word) (s : State) : State :=
  s.onRpw fun r => { setIndices p e d r with early := [], earlyLoss := 0, earlyFirst := none, earlyLast := none }

/-- The first entry of the status page (R171; log 23, 61). -/
def pageEntry (s : State) : InjEntry :=
  { areaEntry .ccu 0x8000 (beatsOf ((statusPage s).take 256)) true s with tag := .indices s.rpw.evProd s.rpw.dgProd }

/-- The status page fills an empty injection queue, and area initialisation ends behind it (log 61). -/
theorem settle_statusPage {s : State} (quiet : s.lif.injWaiting = []) (empty : s.lif.injQueue = []) :
    settle (s.ask .ccu .statusPage) = settle (finishInit (injectedAll
      (pageEntry s :: chunkEntries .ccu 256 ((statusPage s).drop 256) 15 s) s)) := by
  have first : joinOp .ccu .statusPage s =
      (injected (pageEntry s) s).ask .ccu (.statusRest 256 ((statusPage s).drop 256)) :=
    askFirst_quiet (s := injected (pageEntry s) s) _ _ quiet
  have one : (injected (pageEntry s) s).lif.injQueue.length = 1 := by simp [injected, empty]
  rw [settle_ask quiet (by rw [empty]; decide), first, settle_ask (s := injected (pageEntry s) s) quiet (by rw [one]; decide),
    settle_statusRest 14 256 _ (injected (pageEntry s) s) (by rw [List.length_drop, statusPage_length]) quiet (by omega)]
  exact congrArg (fun v => settle (finishInit v)) (injectedAll_cons (pageEntry s) _ s)

theorem earlyRecords_nil {s : State} (empty : s.rpw.early = []) (none : s.rpw.earlyLoss = 0) : s.earlyRecords = [] := by
  simp [State.earlyRecords, empty, none]

/-- Settles O50: what joins keeps the indices; with nothing before it the status page fills the queue, and its end changes the
part. -/
theorem areaInitialisationSetsTheIndices : Obligations.AreaInitialisationSetsTheIndices := by
  intro s p e d released quiet part unset prod ev dg kept
  have due : s.initDue = true := by
    have all : (s.ccu.initReads.toList.all fun r => r.isSome) = true := by
      refine List.all_eq_true.mpr fun r hr => ?_
      obtain ⟨k, hk, rfl⟩ := Vector.mem_iff_getElem.mp (Vector.mem_toList_iff.mp hr)
      obtain rfl | rfl | rfl : k = 0 ∨ k = 1 ∨ k = 2 := by omega
      · exact Option.isSome_iff_exists.mpr ⟨p, prod⟩
      · exact Option.isSome_iff_exists.mpr ⟨e, ev⟩
      · exact Option.isSome_iff_exists.mpr ⟨d, dg⟩
    rw [State.initDue, all]
    simp [released, part, unset, (blocked_quiet s .ccu quiet).2.2]
  have leads : exec .areaInitialisation s = .next (settle (askEarly s.earlyRecords (indexed p e d s))) := by
    have begins : initialise s = askEarly s.earlyRecords (indexed p e d s) := by
      unfold initialise
      rw [prod, ev, dg]
      rfl
    change Host.Outcome.next (stepWhen s.initDue initialise s) = _
    rw [due, stepWhen_true, begins]
  constructor
  · have keeps (early : Bool) (none : early = false → s.earlyRecords = []) : KeepsIndices early (indexed p e d s)
        (settle (askEarly s.earlyRecords (indexed p e d s))) := by
      have asks := keepsIndices_askEarly (t := indexed p e d s) s.earlyRecords none
      have waits : ∀ w ∈ (indexed p e d s).lif.injWaiting, ofInitialisation early w.2 = true := by
        rw [show (indexed p e d s).lif.injWaiting = [] from quiet]
        exact nofun
      exact asks.trans (keepsIndices_settle (asks.kept (by exact kept)) (asks.asked waits))
    have all := keeps true nofun
    have rpw {α : Type} (f : Rpw → α) := congrArg f all.report
    refine ⟨_, leads, rpw Rpw.indicesSet, rpw Rpw.done, rpw Rpw.prod, rpw Rpw.evCons, rpw Rpw.dgProd, rpw Rpw.dgCons,
      rpw Rpw.early, rpw Rpw.earlyLoss, rpw Rpw.lost, rpw Rpw.exec, fun empty none => ?_, all.tdr, all.recs, all.cvm⟩
    exact (keeps false fun _ => earlyRecords_nil empty none).events rfl
  · intro queue empty none u page bytes first later ends
    have same : indexed p e d s = u := by simp [indexed, setIndices, State.onRpw, u, empty, none]
    have asks : askEarly s.earlyRecords (indexed p e d s) = u.ask .ccu .statusPage := by
      rw [earlyRecords_nil empty none, same]
      rfl
    let l := pageEntry u :: chunkEntries .ccu 256 (page.drop 256) 15 u
    have entries : l = first :: (List.range 15).map later := by
      refine congrArg (List.cons first) (List.map_congr_left fun k _ => ?_)
      rw [List.drop_drop, show 256 + 256 * k = 256 * (k + 1) by omega]
      rfl
    have filled : (injectedAll l u).lif.injQueue = l := by simp [injectedAll, u, queue]
    have ends_ (new : PartState) (finish : finishInit (injectedAll l u) =
        ((changed new .initDone (injectedAll l u)).onCcu fun c => { c with initKept := Vector.replicate 3 .none }).ask .ccu
          (.partRecord new (injectedAll l u).site)) : ends new := by
      have length : (finishInit (injectedAll l u)).lif.injQueue.length = 16 := by
        have same : (finishInit (injectedAll l u)).lif.injQueue = l := by
          rw [finish]
          exact filled
        rw [same, entries]
        rfl
      change exec .areaInitialisation s = _
      rw [leads, asks, settle_statusPage (s := u) quiet queue, settle_full _ length.ge, finish]
      simp [changed, raised, State.onCcu, State.ask, State.onLif, injectedAll, entries, queue, quiet, u, part]
      exact ⟨rfl, rfl⟩
    refine ⟨statusPage_length u, fun off => ends_ .suspended (finishInit_suspended (by exact off) (by exact kept)),
      fun on rings cranes drain sweep => ends_ .running (finishInit_running (by exact on) (by exact kept) (by exact rings)
        (by exact cranes) (by exact drain) (by exact sweep))⟩

end Sys2Proof.Machine
end

section
/-! # The commit of an uplink slot (02_watched_rings_and_frame_capture.md, R36 to R39, R44)

The watermarks as one equation, the advance of P, the verdict on a captured frame, and the receipt. -/

namespace Sys2Proof.Machine

open Sys2Proof.Claims

/-! ## The watermarks (R44) -/

theorem withRing_self (r : Fin 16) (s : State) : withRing r (s.ring r) s = s := by
  simp [withRing, State.ring]

/-- An evaluation of the watermarks: the ring's state of them, and its event. -/
theorem evalMarks_eq (r : Fin 16) (s : State) : evalMarks r s =
    raised (markEvent r (s.ring r) (occupancy (s.ring r)))
      (withRing r { s.ring r with above := aboveAfter (s.ring r) (occupancy (s.ring r)) } s) := by
  rcases evalMarks_cases r s with ⟨below, high, leads⟩ | ⟨above, low, leads⟩ | ⟨high, low, leads⟩
  · have rises : markEvent r (s.ring r) (occupancy (s.ring r)) = [event .rmn .ringHigh .ring r.val (occupancy (s.ring r)) 0 0] :=
      if_pos ⟨below, high⟩
    have after : aboveAfter (s.ring r) (occupancy (s.ring r)) = true := if_pos ⟨below, high⟩
    rw [leads, rises, after]
    rfl
  · have not : ¬((s.ring r).above = false ∧ (s.ring r).desc.high ≤ occupancy (s.ring r)) := fun h =>
      Bool.false_ne_true (h.1.symm.trans above)
    have falls : markEvent r (s.ring r) (occupancy (s.ring r)) = [event .rmn .ringLow .ring r.val (occupancy (s.ring r)) 0 0] :=
      (if_neg not).trans (if_pos ⟨above, low⟩)
    have after : aboveAfter (s.ring r) (occupancy (s.ring r)) = false := (if_neg not).trans (if_pos ⟨above, low⟩)
    rw [leads, falls, after]
    rfl
  · have notHigh : ¬((s.ring r).above = false ∧ (s.ring r).desc.high ≤ occupancy (s.ring r)) := fun ⟨off, reached⟩ =>
      high.elim (fun on => Bool.false_ne_true (off.symm.trans on)) (Nat.not_lt.mpr reached)
    have notLow : ¬((s.ring r).above = true ∧ occupancy (s.ring r) ≤ (s.ring r).desc.low) := fun ⟨on, reached⟩ =>
      low.elim (fun off => Bool.false_ne_true (off.symm.trans on)) (Nat.not_lt.mpr reached)
    have none : markEvent r (s.ring r) (occupancy (s.ring r)) = [] := (if_neg notHigh).trans (if_neg notLow)
    have same : aboveAfter (s.ring r) (occupancy (s.ring r)) = (s.ring r).above := (if_neg notHigh).trans (if_neg notLow)
    rw [leads, none, same, raised_nil]
    exact (withRing_self r s).symm

/-! ## The advance (R36 step 7) -/

/-- Ring `g` with the slot of index `i` committed: P behind it, the slot's entry gone, the watermarks evaluated. -/
def advancedRing (g : Ring) (sl : Nat) (i : Word) : Ring :=
  { g with slotMap := mapDel sl g.slotMap, prod := i + 1, above := aboveAfter g (i + 1 - g.cons).toNat }

/-- P rises behind index `i` and the watermarks are evaluated. -/
theorem evalMarks_advance (r : Fin 16) (sl : Nat) (i : Word) (s : State) :
    evalMarks r (s.onRing r fun g => { g with slotMap := mapDel sl g.slotMap, prod := i + 1 }) =
      raised (markEvent r (s.ring r) (i + 1 - (s.ring r).cons).toNat) (withRing r (advancedRing (s.ring r) sl i) s) := by
  have moved : (s.onRing r fun g => { g with slotMap := mapDel sl g.slotMap, prod := i + 1 }) =
      withRing r { s.ring r with slotMap := mapDel sl (s.ring r).slotMap, prod := i + 1 } s := rfl
  rw [evalMarks_eq, moved, withRing_ring, withRing_withRing]
  rfl

/-- A commit whose target is ahead, or whose receipts are out, goes on behind the advance. -/
theorem checkComplete_raised (r : Fin 16) (g : Ring) (l : List EventReq) (s : State)
    (goesOn : ∀ c, g.commit = some c → g.prod ≠ c.target ∨ g.outstanding ≠ 0) :
    checkComplete r (raised l (withRing r g s)) = raised l (withRing r g s) := by
  have ring : (raised l (withRing r g s)).ring r = g := withRing_ring ..
  exact checkComplete_open r _ (by rw [ring]; exact goesOn)

/-! ## The buffer of a slot (R31, R36) -/

/-- A slot whose entry names no FILLING buffer has none to free. -/
theorem freeSlotBuffer_none {r : Fin 16} {sl : Nat} {s : State}
    (h : (mapGet (s.ring r).slotMap sl).bind SlotEntry.fillingBuffer = none) : freeSlotBuffer r sl s = s := by
  rw [freeSlotBuffer, h]

/-- A slot whose buffer has gone on has none to free. -/
theorem freeSlotBuffer_gone {r : Fin 16} {sl : Nat} {s : State} {b : Fin 64} {i : Word}
    (h : mapGet (s.ring r).slotMap sl = some (.filling b i)) (gone : fillingFor r (s.buffer b) = false) :
    freeSlotBuffer r sl s = s := by
  rw [freeSlotBuffer, h]
  exact if_neg (by rw [gone]; exact Bool.false_ne_true)

/-- A commit with no buffer has none whose fate to tell. -/
theorem bufferFate_none {c : CommitPoint} {s : State} (h : c.buf = none) : bufferFate c s = s := by rw [bufferFate, h]

/-- The event of a MALFORMED frame (R36 step 6). -/
def malformedEvents (c : CommitPoint) : List EventReq :=
  if c.verdict = .malformed then [event .rmn .frameMalformed .ring c.ring.val c.index.toNat (reasonCode c.reason) 0] else []

/-- Steps 6 and 7 of a commit whose receipts are out, its buffer's fate told by `w` (R36). -/
theorem finishSlot_eq {c : CommitPoint} {v w : State} (fate : freeSlotBuffer c.ring c.slot (bufferFate c v) = w)
    (rings : w.ring c.ring = v.ring c.ring) (out : (v.ring c.ring).outstanding ≠ 0) :
    finishSlot c v = raised
      (malformedEvents c ++ markEvent c.ring (v.ring c.ring) (c.index + 1 - (v.ring c.ring).cons).toNat)
      (withRing c.ring (advancedRing (v.ring c.ring) c.slot c.index) w) := by
  have told : (if c.verdict = .malformed then
      w.raise .rmn .frameMalformed .ring c.ring.val c.index.toNat (reasonCode c.reason) 0 else w) =
      raised (malformedEvents c) w := by
    unfold malformedEvents
    split
    · rfl
    · exact (raised_nil w).symm
  have ring : (raised (malformedEvents c) w).ring c.ring = v.ring c.ring := rings
  unfold finishSlot
  dsimp only
  rw [fate, told, evalMarks_advance, ring, checkComplete_raised c.ring (advancedRing _ _ _) _ _ fun _ _ => .inr out]
  exact raised_raised _ _ (withRing _ _ _)

/-! ## The receipt (R38) -/

/-- What the commit of the slot at P of ring `r` reads at step 4 (R36). -/
def pointOf (r : Fin 16) (b : Option (Fin 64)) (v : Verdict × Reason) (len : Nat) (s : State) : CommitPoint :=
  { ring := r, index := (s.ring r).prod, slot := slotOf (s.ring r) (s.ring r).prod, buf := b, verdict := v.1, reason := v.2,
    length := len, runTime := s.now, siteTime := s.site }

/-- `s` with the receipt of ring `r`'s slot at P written, one more outstanding (R38). -/
def receipted (r : Fin 16) (v : Verdict × Reason) (len : Nat) (s : State) : State :=
  withRing r { s.ring r with outstanding := (s.ring r).outstanding + 1 }
    (injected (receiptEntry r (s.ring r) (verdictCode v.1) (reasonCode v.2) len s) s)

/-- A receipt joins, and the commit goes on behind it (R36, R38). -/
theorem joinOp_receipt (r : Fin 16) (b : Option (Fin 64)) (v : Verdict × Reason) (len : Nat) (s : State) :
    joinOp .rmn (.receipt (pointOf r b v len s)) s = finishSlot (pointOf r b v len s) (receipted r v len s) := by
  have place (d : RingDesc) (sl : Nat) : receiptAddr d sl = d.base + (sl + 1) * d.slotSize - 16 := by
    rw [receiptAddr, Nat.succ_mul, Nat.add_assoc]
  have entry : receiptEntry r (s.ring r) (verdictCode v.1) (reasonCode v.2) len s =
      { block := .rmn, addr := BitVec.ofNat 32 (receiptAddr (s.ring r).desc (slotOf (s.ring r) (s.ring r).prod)), isRead := false,
        beats := beatsOf (receiptBytes (pointOf r b v len s)), ordered := false, eventMark := false,
        tag := .receipt r (s.ring r).gen } := by
    rw [place]
    rfl
  rw [receipted, entry]
  rfl

/-- A slot commits with its receipt: `w` tells its buffer's fate, and `u` what follows (R36 to R38). -/
theorem settle_receipt {r : Fin 16} {b : Option (Fin 64)} {v : Verdict × Reason} {len : Nat} {s w : State}
    (quiet : s.lif.injWaiting = []) (room : s.lif.injQueue.length < Config.injectionDepth)
    (fate : freeSlotBuffer r (slotOf (s.ring r) (s.ring r).prod) (bufferFate (pointOf r b v len s) (receipted r v len s)) = w)
    (rings : w.rmn.rings = (receipted r v len s).rmn.rings) (lif : w.lif = (receipted r v len s).lif) :
    settle (s.ask .rmn (.receipt (pointOf r b v len s))) = raised
      (malformedEvents (pointOf r b v len s) ++
        markEvent r (s.ring r) ((s.ring r).prod + 1 - (s.ring r).cons).toNat)
      (withRing r { advancedRing (s.ring r) (slotOf (s.ring r) (s.ring r).prod) (s.ring r).prod with
        outstanding := (s.ring r).outstanding + 1 } w) := by
  have ring : (receipted r v len s).ring r = { s.ring r with outstanding := (s.ring r).outstanding + 1 } := withRing_ring ..
  have same : w.ring r = (receipted r v len s).ring r := congrArg (fun v : Vector Ring 16 => v[r]) rings
  have finishes := finishSlot_eq (c := pointOf r b v len s) fate same (by
    rw [show (pointOf r b v len s).ring = r from rfl, ring]
    exact Nat.succ_ne_zero _)
  rw [show (pointOf r b v len s).ring = r from rfl, ring] at finishes
  rw [settle_ask quiet room, joinOp_receipt, finishes]
  exact settle_idle _ ((congrArg Lif.injWaiting lif).trans quiet)

/-! ## A slot commits (R36) -/

/-- The next slot of a commit in progress is taken at once (R36). -/
theorem exec_slotCommit {r : Fin 16} {s : State} {c : Commit} (released : s.pins.inReset = false)
    (quiet : s.lif.injWaiting = []) (working : s.working = true) (enabled : (s.ring r).state = .enabled)
    (uplink : (s.ring r).desc.dir = .uplink) (commit : (s.ring r).commit = some c) (left : (s.ring r).prod ≠ c.target)
    (free : r ∉ s.rmn.paused) : exec (.slotCommit r) s = .next (settle (commitSlot r s)) := by
  have due : s.slotCommitDue r = true := by
    simp [State.slotCommitDue, released, working, State.slotsLeft, commit, enabled, left, uplink, free,
      (blocked_quiet s .rmn quiet).2.2]
  change Host.Outcome.next (stepWhen (s.slotCommitDue r) (commitSlot r) s) = _
  rw [due, stepWhen_true]

/-- Settles O22: nothing to free, and the receipt with the reason of the slot's entry. -/
theorem uncapturedSlotCommits : Obligations.UncapturedSlotCommits := by
  intro r s c ready working enabled uplink receipts commit left free g sl occ commits
  have leads := exec_slotCommit ready.released ready.quiet working enabled uplink commit left free
  have commits_ {reason : Reason} (none : bufferFor (mapGet g.slotMap sl) g.prod = .none)
      (empty : (mapGet g.slotMap sl).bind SlotEntry.fillingBuffer = .none)
      (why : missReasonOf (mapGet g.slotMap sl) g.prod = reason) : commits (reasonCode reason) := by
    have asks : commitSlot r s = s.ask .rmn (.receipt (pointOf r .none (.uncaptured, reason) 0 s)) := by
      have goes : commitSlot r s = commitSlotFrom4 r .none (.uncaptured, missReasonOf (mapGet g.slotMap sl) g.prod)
          (freeSlotBuffer r sl s) := by
        unfold commitSlot
        dsimp only
        rw [show bufferFor (mapGet (s.ring r).slotMap (slotOf (s.ring r) (s.ring r).prod)) (s.ring r).prod = .none from none]
        rfl
      rw [goes, why, freeSlotBuffer_none empty]
      exact if_pos receipts
    have ring : (receipted r (.uncaptured, reason) 0 s).ring r = { g with outstanding := g.outstanding + 1 } :=
      withRing_ring ..
    have fate : freeSlotBuffer r sl (bufferFate (pointOf r .none (.uncaptured, reason) 0 s)
        (receipted r (.uncaptured, reason) 0 s)) = receipted r (.uncaptured, reason) 0 s := by
      rw [bufferFate_none rfl]
      exact freeSlotBuffer_none (by rw [ring]; exact empty)
    have settles := settle_receipt ready.quiet ready.room fate rfl rfl
    rw [receipted, withRing_withRing] at settles
    change exec (.slotCommit r) s = _
    rw [leads, asks, settles]
    rfl
  have of {e : Option SlotEntry} (h : mapGet g.slotMap sl = e) {reason : Reason} (none : bufferFor e g.prod = .none)
      (empty : e.bind SlotEntry.fillingBuffer = .none) (why : missReasonOf e g.prod = reason) : commits (reasonCode reason) :=
    commits_ (h ▸ none) (h ▸ empty) (h ▸ why)
  refine ⟨fun h => ?_, fun h => ?_, fun h => ?_, fun w i other h => ?_⟩
  · exact of h (reason := .notWritten) rfl rfl rfl
  · exact of h (reason := .exhausted) rfl rfl (if_pos rfl)
  · exact of h (reason := .foreign) rfl rfl (if_pos rfl)
  · exact of h (reason := .notWritten) rfl rfl (by cases w <;> exact if_neg other)

end Sys2Proof.Machine
end

section
/-! # A captured frame: its commit and its dispatch (02_watched_rings_and_frame_capture.md, R36 to R39, R42, R43)

The verdict as the first test that fails, what becomes of the buffer, and the release of the head of the dispatch queue. -/

namespace Sys2Proof.Machine

open Sys2Proof.Claims

/-! ## The verdict (R37) -/

/-- The codes of a verdict and its reason (11, receipt). -/
def codesOf (v : Verdict × Reason) : Nat × Nat := (verdictCode v.1, reasonCode v.2)

/-- The verdict and the reason of the first test that fails, else ACCEPTED. -/
def firstFailure (l : List (Bool × Nat × Nat)) : Nat × Nat := ((l.find? fun q => q.1).map fun q => q.2).getD (1, 0)

theorem firstFailure_cons (fails : Bool) (v : Nat × Nat) (l : List (Bool × Nat × Nat)) :
    firstFailure ((fails, v) :: l) = if fails then v else firstFailure l := by
  cases fails <;> rfl

/-- The COUNT test fails as R37 says. -/
theorem countFits_eq (f : Frame) : (!countFits f) =
    !(if frameKind f = 1 then frameCount f == 0
      else if frameKind f = 3 then 1 ≤ frameCount f && frameCount f ≤ 12 && 32 + 16 * frameCount f ≤ frameLen f
      else if frameKind f = 4 then 1 ≤ frameCount f && frameCount f ≤ 8 && 32 + 2 * frameCount f ≤ frameLen f else true) := by
  unfold countFits
  split
  · next one => simp [one]
  · next three => simp [three]
  · next four => simp [four]
  · next not1 not3 not4 => rw [if_neg not1, if_neg not3, if_neg not4]

/-- The class bit of a kind that has one (11, configuration block, 0x005). -/
theorem ignored_iff (c : Cfg) (kind : Nat) : (kind = 0 ∨ kind = 2 ∨ !c.kindMask.testBit (classBit kind)) ↔
    (kind == 0 || kind == 2 || !c.kindMask.testBit (if kind < 5 then kind - 1 else 4)) = true := by
  by_cases zero : kind = 0
  · simp [zero]
  · have bit : classBit kind = if kind < 5 then kind - 1 else 4 := by
      unfold classBit
      split <;> split <;> omega
    simp [bit, or_assoc]

/-- The model's verdict is that of the first test of R37 that fails. -/
theorem codesOf_judgeFrame (c : Cfg) (d : RingDesc) (f : Frame) : codesOf (judgeFrame c d f) = verdictOf c d f := by
  have top : (if d.receipts then d.slotSize - 16 else d.slotSize) = d.slotSize - (if d.receipts then 16 else 0) := by
    split <;> rfl
  change _ = firstFailure (frameTests c d f)
  unfold judgeFrame frameTests
  simp only [firstFailure_cons, apply_ite codesOf, top]
  refine if_congr (by simp) rfl (if_congr ?_ rfl (if_congr (by simp) rfl (if_congr (by simp) rfl (if_congr ?_ rfl
    (if_congr (by simp) rfl (if_congr (ignored_iff ..) rfl rfl))))))
  · rw [ne_comm (a := c.version) (b := frameVersion f)]
    simp
  · rw [countFits_eq]

/-- Where no test gives ACCEPTED, that verdict says that none fails. -/
theorem firstFailure_accepted {l : List (Bool × Nat × Nat)} (others : ∀ q ∈ l, q.2.1 ≠ 1) (h : (firstFailure l).1 = 1) :
    firstFailure l = (1, 0) := by
  unfold firstFailure at h ⊢
  cases found : l.find? fun q => q.1 with
  | none => rfl
  | some q =>
    rw [found] at h
    exact absurd h (others q (List.mem_of_find?_eq_some found))

theorem verdictCode_eq_one (v : Verdict) : verdictCode v = 1 ↔ v = .accepted := by cases v <;> simp [verdictCode]

theorem verdictCode_eq_two (v : Verdict) : verdictCode v = 2 ↔ v = .malformed := by cases v <;> simp [verdictCode]

/-- A frame is ACCEPTED where no test fails. -/
theorem judgeFrame_accepted_iff (c : Cfg) (d : RingDesc) (f : Frame) :
    (judgeFrame c d f).1 = .accepted ↔ verdictOf c d f = (1, 0) := by
  have code : verdictCode (judgeFrame c d f).1 = (verdictOf c d f).1 := congrArg Prod.fst (codesOf_judgeFrame c d f)
  rw [← verdictCode_eq_one, code]
  exact ⟨firstFailure_accepted (by simp [frameTests]), fun h => by rw [h]⟩

/-! ## The buffer's fate (R36 step 6) -/

/-- `s` with buffer `b` QUEUED at the tail of the dispatch queue as `d` (R42). -/
def dispatched (b : Fin 64) (d : DispatchEntry) (s : State) : State :=
  { s with rmn := { s.rmn with
      buffers := s.rmn.buffers.set b { s.buffer b with st := .queued }, dispatch := s.rmn.dispatch ++ [d] } }

/-- `s` with buffer `b` FREE (R31). -/
def bufferFreed (b : Fin 64) (s : State) : State :=
  { s with rmn := { s.rmn with
      buffers := s.rmn.buffers.set b { s.buffer b with st := .free }, exhausted := false } }

theorem dispatched_withRing (b : Fin 64) (d : DispatchEntry) (r : Fin 16) (g : Ring) (s : State) :
    dispatched b d (withRing r g s) = withRing r g (dispatched b d s) := rfl

theorem bufferFreed_withRing (b : Fin 64) (r : Fin 16) (g : Ring) (s : State) :
    bufferFreed b (withRing r g s) = withRing r g (bufferFreed b s) := rfl

section
variable {r : Fin 16} {b : Fin 64} {v : Verdict × Reason} {len : Nat} {s : State} {sl : Nat}
  (quiet : s.lif.injWaiting = []) (room : s.lif.injQueue.length < Config.injectionDepth)
  (slot : slotOf (s.ring r) (s.ring r).prod = sl)
  (entry : mapGet (s.ring r).slotMap sl = some (.filling b (s.ring r).prod))
  (filling : (s.buffer b).st = .filling r sl (s.ring r).prod)
include quiet room slot entry filling

/-- An ACCEPTED frame's slot commits: its receipt, its buffer QUEUED, P behind it (R36 to R38, R42). -/
theorem settle_accepted (codes : codesOf v = (1, 0)) :
    settle (s.ask .rmn (.receipt (pointOf r (some b) v len s))) =
      raised (markEvent r (s.ring r) ((s.ring r).prod + 1 - (s.ring r).cons).toNat)
        (withRing r { advancedRing (s.ring r) sl (s.ring r).prod with outstanding := (s.ring r).outstanding + 1 }
          (dispatched b { ring := r, index := (s.ring r).prod, runTime := s.tbs.runClock, buf := b }
            (injected (receiptEntry r (s.ring r) 1 0 len s) s))) := by
  have accepted : v.1 = .accepted := (verdictCode_eq_one _).mp (congrArg Prod.fst codes)
  have entry_ : receiptEntry r (s.ring r) (verdictCode v.1) (reasonCode v.2) len s = receiptEntry r (s.ring r) 1 0 len s := by
    rw [show verdictCode v.1 = 1 from congrArg Prod.fst codes, show reasonCode v.2 = 0 from congrArg Prod.snd codes]
  let d : DispatchEntry := { ring := r, index := (s.ring r).prod, runTime := s.tbs.runClock, buf := b }
  have fate : bufferFate (pointOf r (some b) v len s) (receipted r v len s) = dispatched b d (receipted r v len s) :=
    (if_pos (filling.trans (by rw [← slot]; rfl))).trans (if_pos accepted)
  have ring : (dispatched b d (receipted r v len s)).ring r =
      { s.ring r with outstanding := (s.ring r).outstanding + 1 } := withRing_ring ..
  have buffer : (dispatched b d (receipted r v len s)).buffer b = { s.buffer b with st := .queued } :=
    Vector.getElem_set_self b.isLt
  have kept : freeSlotBuffer r sl (dispatched b d (receipted r v len s)) = dispatched b d (receipted r v len s) :=
    freeSlotBuffer_gone (b := b) (i := (s.ring r).prod) (by rw [ring]; exact entry) (by rw [buffer]; rfl)
  have settles := settle_receipt (w := dispatched b d (receipted r v len s)) (b := some b) (v := v) (len := len) quiet room (by rw [slot, fate, kept]) rfl rfl
  have silent : malformedEvents (pointOf r (some b) v len s) = [] := if_neg (fun malformed => by
    cases accepted.symm.trans malformed)
  rw [settles, silent, slot, List.nil_append, receipted, dispatched_withRing, withRing_withRing, entry_]

/-- Another frame's slot commits: its receipt, its buffer FREE, P behind it, and FRAME_MALFORMED where it is (R36 to R38). -/
theorem settle_rejected {q : Nat × Nat} (codes : codesOf v = q) (refused : q.1 ≠ 1) :
    settle (s.ask .rmn (.receipt (pointOf r (some b) v len s))) =
      raised ((if q.1 = 2 then [event .rmn .frameMalformed .ring r.val (s.ring r).prod.toNat q.2 0] else []) ++
        markEvent r (s.ring r) ((s.ring r).prod + 1 - (s.ring r).cons).toNat)
        (withRing r { advancedRing (s.ring r) sl (s.ring r).prod with outstanding := (s.ring r).outstanding + 1 }
          (bufferFreed b (injected (receiptEntry r (s.ring r) q.1 q.2 len s) s))) := by
  have code : verdictCode v.1 = q.1 := congrArg Prod.fst codes
  have reason : reasonCode v.2 = q.2 := congrArg Prod.snd codes
  have accepted : v.1 ≠ .accepted := fun h => refused (code.symm.trans ((verdictCode_eq_one _).mpr h))
  have entry_ : receiptEntry r (s.ring r) (verdictCode v.1) (reasonCode v.2) len s = receiptEntry r (s.ring r) q.1 q.2 len s := by
    rw [code, reason]
  have told : malformedEvents (pointOf r (some b) v len s) =
      if q.1 = 2 then [event .rmn .frameMalformed .ring r.val (s.ring r).prod.toNat q.2 0] else [] := by
    rw [← code, ← reason, if_congr (verdictCode_eq_two v.1) rfl rfl]
    rfl
  have fate : bufferFate (pointOf r (some b) v len s) (receipted r v len s) = bufferFreed b (receipted r v len s) :=
    (if_pos (filling.trans (by rw [← slot]; rfl))).trans (if_neg accepted)
  have ring : (bufferFreed b (receipted r v len s)).ring r =
      { s.ring r with outstanding := (s.ring r).outstanding + 1 } := withRing_ring ..
  have buffer : (bufferFreed b (receipted r v len s)).buffer b = { s.buffer b with st := .free } :=
    Vector.getElem_set_self b.isLt
  have kept : freeSlotBuffer r sl (bufferFreed b (receipted r v len s)) = bufferFreed b (receipted r v len s) :=
    freeSlotBuffer_gone (b := b) (i := (s.ring r).prod) (by rw [ring]; exact entry) (by rw [buffer]; rfl)
  have settles := settle_receipt (w := bufferFreed b (receipted r v len s)) (b := some b) (v := v) (len := len) quiet room (by rw [slot, fate, kept]) rfl rfl
  rw [settles, slot, receipted, bufferFreed_withRing, withRing_withRing, told, entry_]

end

/-! ## The head of the dispatch queue (R43) -/

/-- The head frame is handled at once where nothing is in handling and no expiry comes first (R43, R82). -/
theorem exec_dispatchFrame {s : State} {e : DispatchEntry} {rest : List DispatchEntry} (released : s.pins.inReset = false)
    (quiet : s.lif.injWaiting = []) (working : s.working = true) (head : s.rmn.dispatch = e :: rest)
    (fresh : s.rmn.handling = none) (inTime : s.expiryFirst = false) :
    exec .dispatchFrame s = .next (settle (beginFrame e s)) := by
  have calm (b : Block) : s.blocked b = false := (blocked_quiet s b quiet).2.2
  have due : s.frameDue = true := by
    simp [State.frameDue, released, working, head, State.handlingDue, fresh, inTime, calm]
  have handles : handleFrame s = beginFrame e s := by
    rw [handleFrame, head]
    dsimp only
    rw [fresh]
  change Host.Outcome.next (stepWhen s.frameDue handleFrame s) = _
  rw [due, stepWhen_true, handles]

/-- A frame of another kind than CRANE_STATUS has no expiry to wait for. -/
theorem expiryFirst_other {s : State} {e : DispatchEntry} {rest : List DispatchEntry} (head : s.rmn.dispatch = e :: rest)
    (kind : frameKind (s.buffer e.buf).bytes ≠ 1) : s.expiryFirst = false := by
  unfold State.expiryFirst
  rw [head]
  simp [kind]

/-- A frame that names no terminal touches no entry (R49). -/
theorem dirStep_reserved {r : Fin 16} {f : Frame} {t : Nat} {s : State} (reserved : frameTid f = 0 ∨ frameTid f = 0xFFFF) :
    dirStep r f t s = (s, none) := if_pos reserved

/-- With coverage off a frame's handling ends with its release. -/
theorem finishFrame_off {e : DispatchEntry} {f : Frame} {d : Option DirResult} {s : State} (off : s.ccu.cfg.coverageEn = false) :
    finishFrame e f d s = releaseHead e s := congrArg (releaseHead e) (if_neg (ne_true_of_eq_false off))

/-- `s` with the head frame `e` released (R43 step 3). -/
def headReleased (e : DispatchEntry) (rest : List DispatchEntry) (s : State) : State := { s with rmn := frameReleased e rest s }

theorem releaseHead_eq {s : State} {e : DispatchEntry} {rest : List DispatchEntry} (head : s.rmn.dispatch = e :: rest)
    (fresh : s.rmn.handling = none) : releaseHead e s = resumePaused s.rmn.paused (headReleased e rest s) := by
  have same : (freeBuffer e.buf s).onRmn (fun m => { m with dispatch := m.dispatch.drop 1, handling := none }) =
      headReleased e rest s := by
    have rests : s.rmn.dispatch.drop 1 = rest := by rw [head]; rfl
    rw [← rests, headReleased, frameReleased]
    rw [show none = s.rmn.handling from fresh.symm]
    rfl
  rw [releaseHead, same]
  rfl

/-- The head frame's release, where no commit is paused. -/
theorem releaseHead_unpaused {s : State} {e : DispatchEntry} {rest : List DispatchEntry} (head : s.rmn.dispatch = e :: rest)
    (fresh : s.rmn.handling = none) (unpaused : s.rmn.paused = []) : releaseHead e s = headReleased e rest s := by
  rw [releaseHead_eq head fresh, unpaused]
  have still : { frameReleased e rest s with paused := [] } = frameReleased e rest s := by
    rw [← unpaused]
    rfl
  exact congrArg (fun m => { s with rmn := m }) still

/-! ## The three outcomes of a captured frame -/

/-- A captured frame's slot: it pauses where an ACCEPTED frame finds no place (R39), else asks for its receipt (R36, R38). -/
theorem commitSlot_captured {r : Fin 16} {b : Fin 64} {s : State}
    (entry : mapGet (s.ring r).slotMap (slotOf (s.ring r) (s.ring r).prod) = some (.filling b (s.ring r).prod))
    (receipts : (s.ring r).desc.receipts = true) :
    let v := judgeFrame s.ccu.cfg (s.ring r).desc (s.buffer b).bytes
    commitSlot r s = if v.1 = .accepted ∧ 32 ≤ s.rmn.dispatch.length then
        { s with rmn := { s.rmn with paused := s.rmn.paused ++ [r] } }
      else s.ask .rmn (.receipt (pointOf r (some b) v (frameLen (s.buffer b).bytes) s)) := by
  have asks (v : Verdict × Reason) : commitSlotFrom4 r (some b) v s =
      s.ask .rmn (.receipt (pointOf r (some b) v (frameLen (s.buffer b).bytes) s)) := if_pos receipts
  have buffer : bufferFor (some (.filling b (s.ring r).prod)) (s.ring r).prod = some b := if_pos rfl
  intro v
  unfold commitSlot
  dsimp only
  rw [entry, buffer]
  dsimp only
  rw [asks]
  rfl

/-- A frame that names no terminal, coverage off, is released at once, and its dispatch place goes to the oldest paused commit
(R39, R43). -/
theorem beginFrame_resumes {s : State} {r : Fin 16} {b : Fin 64} {e : DispatchEntry} {rest : List DispatchEntry}
    {more : List (Fin 16)} (head : s.rmn.dispatch = e :: rest) (fresh : s.rmn.handling = none) (paused : s.rmn.paused = r :: more)
    (off : s.ccu.cfg.coverageEn = false) (kind : 5 ≤ frameKind (s.buffer e.buf).bytes)
    (reserved : frameTid (s.buffer e.buf).bytes = 0 ∨ frameTid (s.buffer e.buf).bytes = 0xFFFF)
    (receipts : (s.ring r).desc.receipts = true) (other : b ≠ e.buf)
    (entry : mapGet (s.ring r).slotMap (slotOf (s.ring r) (s.ring r).prod) = some (.filling b (s.ring r).prod)) :
    let u : State := { s with rmn := { frameReleased e rest s with paused := more } }
    beginFrame e s = u.ask .rmn (.receipt (pointOf r (some b) (.accepted, .none) (frameLen (s.buffer b).bytes) u)) := by
  intro u
  have buffer : (headReleased e rest s).buffer b = s.buffer b :=
    Vector.getElem_set_ne e.buf.isLt b.isLt fun same => other (Fin.ext same.symm)
  have point : bufferFor (mapGet ((headReleased e rest s).ring r).slotMap
      (slotOf ((headReleased e rest s).ring r) ((headReleased e rest s).ring r).prod)) ((headReleased e rest s).ring r).prod =
      some b := (congrArg (bufferFor · (s.ring r).prod) entry).trans (if_pos rfl)
  have resumes : resumePaused (r :: more) (headReleased e rest s) = commitSlotFrom4 r (some b) (.accepted, .none) u := by
    unfold resumePaused
    dsimp only
    rw [point]
    rfl
  have asks : commitSlotFrom4 r (some b) (.accepted, .none) u =
      u.ask .rmn (.receipt (pointOf r (some b) (.accepted, .none) (frameLen (u.buffer b).bytes) u)) := if_pos receipts
  have begins : beginFrame e s = finishFrame e (s.buffer e.buf).bytes none s := by
    unfold beginFrame
    dsimp only
    rw [dirStep_reserved reserved, if_neg (fun h => by omega), if_neg (fun h => by omega)]
  rw [begins, finishFrame_off off, releaseHead_eq head fresh, paused, resumes, asks]
  exact congrArg (fun x : Buffer => u.ask .rmn (.receipt (pointOf r (some b) (.accepted, .none) (frameLen x.bytes) u))) buffer

/-- A buffer but `b` is as it was behind its dispatch. -/
theorem dispatched_buffer_ne {b d : Fin 64} (e : DispatchEntry) (s : State) (other : d ≠ b) :
    (dispatched b e s).buffer d = s.buffer d :=
  Vector.getElem_set_ne b.isLt d.isLt fun same => other (Fin.ext same.symm)

/-- What the commit of an ACCEPTED frame leads to, block by block. -/
theorem dispatched_frame (l : List EventReq) (r : Fin 16) (g : Ring) (b : Fin 64) (d : DispatchEntry) (e : InjEntry) (s : State) :
    let t := raised l (withRing r g (dispatched b d (injected e s)))
    SameBut true true false false false false false false true s t ∧ t.ring r = g ∧ (∀ q, q ≠ r → t.ring q = s.ring q) ∧
      t.buffer b = { s.buffer b with st := .queued } ∧ (∀ c, c ≠ b → t.buffer c = s.buffer c) ∧
      t.rmn.dispatch = s.rmn.dispatch ++ [d] ∧ t.rmn.paused = s.rmn.paused ∧
      t.rpw = { s.rpw with events := s.rpw.events ++ l } ∧ t.lif = (injected e s).lif := by
  refine ⟨?_, withRing_ring .., fun q other => withRing_ring_ne _ _ other, Vector.getElem_set_self b.isLt,
    fun c other => dispatched_buffer_ne d _ other, rfl, rfl, rfl, rfl⟩
  simp [SameBut, raised, withRing, dispatched, injected]

/-- Settles O23: the verdict's first failing test decides the buffer's fate, and a release resumes the oldest paused commit. -/
theorem acceptedFrameIsDispatched : Obligations.AcceptedFrameIsDispatched := by
  constructor
  · intro r s c b ready working enabled uplink receipts commit left free g sl occ entry filling f v g'
    have leads := exec_slotCommit ready.released ready.quiet working enabled uplink commit left free
    rw [commitSlot_captured entry receipts] at leads
    have accepts := judgeFrame_accepted_iff s.ccu.cfg g.desc f
    have codes : codesOf (judgeFrame s.ccu.cfg g.desc f) = v := codesOf_judgeFrame ..
    refine ⟨fun accepted full => ?_, fun accepted place => ?_, fun refused => ?_⟩
    · rw [leads, if_pos ⟨accepts.mpr accepted, full⟩]
      exact congrArg Host.Outcome.next (settle_idle _ ready.quiet)
    · rw [if_neg (fun h => Nat.not_le.mpr place h.2),
        settle_accepted ready.quiet ready.room rfl entry filling (codes.trans accepted)] at leads
      obtain ⟨same, ring, rings, buffer, buffers, queue, -, rpw, lif⟩ := dispatched_frame (markEvent r g occ) r g' b
        { ring := r, index := g.prod, runTime := s.tbs.runClock, buf := b } (receiptEntry r g 1 0 (frameLen f) s) s
      exact ⟨_, leads, same, ring, rings, buffer, buffers, queue, rpw, lif⟩
    · intro events
      have judged : (judgeFrame s.ccu.cfg g.desc f).1 ≠ .accepted := mt accepts.mp refused
      have code : v.1 ≠ 1 := fun one => judged ((verdictCode_eq_one _).mp ((congrArg Prod.fst codes).trans one))
      rw [if_neg (fun h => judged h.1), settle_rejected ready.quiet ready.room rfl entry filling codes code] at leads
      exact leads
  · intro r s b e rest more ready working head fresh paused off kind reserved receipts other g sl occ entry filling
    let u : State := { s with rmn := { frameReleased e rest s with paused := more } }
    have buffer : u.buffer b = s.buffer b :=
      Vector.getElem_set_ne e.buf.isLt b.isLt fun same => other (Fin.ext same.symm)
    have leads := exec_dispatchFrame ready.released ready.quiet working head fresh (expiryFirst_other head (by omega))
    rw [beginFrame_resumes head fresh paused off kind reserved receipts other entry,
      settle_accepted (s := u) ready.quiet ready.room rfl entry (by rw [buffer]; exact filling) rfl] at leads
    obtain ⟨same, ring, rings, queued, buffers, queue, still, rpw, lif⟩ := dispatched_frame (markEvent r g occ) r
      { g with
        slotMap := mapDel sl g.slotMap, prod := g.prod + 1, outstanding := g.outstanding + 1, above := aboveAfter g occ } b
      { ring := r, index := g.prod, runTime := s.tbs.runClock, buf := b }
      (receiptEntry r g 1 0 (frameLen (s.buffer b).bytes) s) u
    have stays : SameBut true true false false false false false false true s u := by simp [SameBut, u]
    refine ⟨_, leads, sameBut_trans stays same, ring, rings, still, queue, ?_, ?_, fun d this that => ?_, rpw, lif⟩
    · exact (buffers _ other.symm).trans (Vector.getElem_set_self e.buf.isLt)
    · refine queued.trans ?_
      rw [buffer]
    · exact (buffers d this).trans (Vector.getElem_set_ne e.buf.isLt d.isLt fun same => that (Fin.ext same.symm))

end Sys2Proof.Machine
end

section
/-! # The commit of a downlink slot (05_downlink_rewriting.md, R96 to R98; 02, R41)

The steps of a commit from the slot's record: its skip, its length and command, its release, and where it is held. -/

namespace Sys2Proof.Machine

open Sys2Proof.Claims

/-! ## The record at P (R89) -/

/-- The entry of the slot at P is `e`, tied to P. -/
structure AtP (r : Fin 16) (e : SlotEntry) (s : State) : Prop where
  found : mapGet (s.ring r).slotMap (slotOf (s.ring r) (s.ring r).prod) = some e
  index : e.index = (s.ring r).prod

/-- The slot at P has no entry. -/
def EmptyAtP (r : Fin 16) (s : State) : Prop := mapGet (s.ring r).slotMap (slotOf (s.ring r) (s.ring r).prod) = none

theorem onRecord_atP {r : Fin 16} {e : SlotEntry} {s : State} (h : AtP r e s) (step : Word → SlotEntry → State → State) :
    onRecord r step s = step (s.ring r).prod e s := by
  have record : s.record r (slotOf (s.ring r) (s.ring r).prod) (s.ring r).prod = some e := by
    rw [State.record, h.found]
    exact if_pos h.index
  unfold onRecord
  dsimp only
  rw [record]

theorem onRecord_empty {r : Fin 16} {s : State} (h : EmptyAtP r s) (step : Word → SlotEntry → State → State) :
    onRecord r step s = s := by
  have record : s.record r (slotOf (s.ring r) (s.ring r).prod) (s.ring r).prod = none := by rw [State.record, h]
  unfold onRecord
  dsimp only
  rw [record]

/-- A record tied to P is not stale (R89). -/
theorem dropStale_atP {r : Fin 16} {e : SlotEntry} {s : State} (h : AtP r e s) :
    dropStale r (slotOf (s.ring r) (s.ring r).prod) (s.ring r).prod s = s := by
  rw [dropStale, h.found]
  exact if_pos h.index

theorem dropStale_empty {r : Fin 16} {s : State} (h : EmptyAtP r s) :
    dropStale r (slotOf (s.ring r) (s.ring r).prod) (s.ring r).prod s = s := by rw [dropStale, h]

/-! ## The release (R96 step 4, R41) -/

/-- The tracker that the slot at P names, FREE (R89). -/
def slotTrackerFreed (r : Fin 16) (s : State) : State :=
  match (mapGet (s.ring r).slotMap (slotOf (s.ring r) (s.ring r).prod)).bind SlotEntry.tracker with
  | some k => trackerFreed k s
  | none => s

theorem slotTrackerFreed_ring (r q : Fin 16) (s : State) : (slotTrackerFreed r s).ring q = s.ring q := by
  unfold slotTrackerFreed
  split <;> rfl

theorem slotTrackerFreed_raised (r : Fin 16) (l : List EventReq) (s : State) :
    slotTrackerFreed r (raised l s) = raised l (slotTrackerFreed r s) := by
  unfold slotTrackerFreed
  rw [show (raised l s).ring r = s.ring r from rfl]
  split <;> rfl

theorem slotTrackerFreed_withCrane (r : Fin 16) (k : Fin 32) (c : Crane) (s : State) :
    slotTrackerFreed r (withCrane k c s) = withCrane k c (slotTrackerFreed r s) := by
  unfold slotTrackerFreed
  rw [show (withCrane k c s).ring r = s.ring r from rfl]
  split <;> rfl

theorem slotTrackerFreed_lif (r : Fin 16) (s : State) : (slotTrackerFreed r s).lif = s.lif := by
  unfold slotTrackerFreed
  split <;> rfl

/-- Dropping the record at P frees its tracker (R89). -/
theorem dropRecord_atP (r : Fin 16) (s : State) : dropRecord r (slotOf (s.ring r) (s.ring r).prod) s =
    withRing r { s.ring r with slotMap := mapDel (slotOf (s.ring r) (s.ring r).prod) (s.ring r).slotMap }
      (slotTrackerFreed r s) := by
  unfold dropRecord slotTrackerFreed
  cases (mapGet (s.ring r).slotMap (slotOf (s.ring r) (s.ring r).prod)).bind SlotEntry.tracker with
  | none => rfl
  | some k => rfl

/-- Downlink ring `g` with its slot at P committed, `c` being its commit (R41). -/
def downlinkAdvanced (g : Ring) (c : Commit) : Ring :=
  { g with
    slotMap := mapDel (slotOf g g.prod) g.slotMap
    prod := g.prod + 1
    above := aboveAfter g (g.prod + 1 - g.cons).toNat
    commit := if g.prod + 1 = c.target then none else some c }

/-- A commit that no request caused is done once P reaches its target (R40, R41). -/
theorem checkComplete_advance {r : Fin 16} {g : Ring} {c : Commit} {l : List EventReq} {s : State}
    (commit : g.commit = some c) (none : g.outstanding = 0) (own : c.byRequest = false) :
    checkComplete r (raised l (withRing r g s)) =
      raised l (withRing r { g with commit := if g.prod = c.target then .none else some c } s) := by
  have ring : (raised l (withRing r g s)).ring r = g := withRing_ring ..
  by_cases last : g.prod = c.target
  · rw [checkComplete_done r _ c (by rw [ring]; exact commit) (by rw [ring]; exact last) (by rw [ring]; exact none), if_pos last,
      own, if_neg Bool.false_ne_true]
    have ends : (raised l (withRing r g s)).onRing r (fun g => { g with commit := .none }) =
        raised l (withRing r { (withRing r g s).ring r with commit := .none } (withRing r g s)) := rfl
    rw [ends, withRing_withRing, withRing_ring]
  · have same : { g with commit := if g.prod = c.target then .none else some c } = g := by
      rw [if_neg last, ← commit]
    rw [same]
    exact checkComplete_open r _ (by
      rw [ring]
      intro d hd
      rw [commit] at hd
      cases hd
      exact .inl last)

/-- The record at P is released and P rises (R96 step 4). -/
theorem releaseRecord_raised {r : Fin 16} {c : Commit} {s : State} (l : List EventReq) (commit : (s.ring r).commit = some c)
    (none : (s.ring r).outstanding = 0) (own : c.byRequest = false) :
    releaseRecord r (raised l s) = raised (l ++ markEvent r (s.ring r) ((s.ring r).prod + 1 - (s.ring r).cons).toNat)
      (withRing r (downlinkAdvanced (s.ring r) c) (slotTrackerFreed r s)) := by
  have drops : (dropRecord r (slotOf (s.ring r) (s.ring r).prod) (raised l s)).onRing r (fun g => { g with prod := g.prod + 1 }) =
      (raised l (slotTrackerFreed r s)).onRing r fun g =>
        { g with slotMap := mapDel (slotOf (s.ring r) (s.ring r).prod) g.slotMap, prod := (s.ring r).prod + 1 } := by
    have freed : dropRecord r (slotOf (s.ring r) (s.ring r).prod) (raised l s) = withRing r
        { s.ring r with slotMap := mapDel (slotOf (s.ring r) (s.ring r).prod) (s.ring r).slotMap }
        (raised l (slotTrackerFreed r s)) := by
      rw [← slotTrackerFreed_raised]
      exact dropRecord_atP r (raised l s)
    have ring : (raised l (slotTrackerFreed r s)).ring r = s.ring r := slotTrackerFreed_ring r r s
    have onRing_ (v : State) (f : Ring → Ring) : v.onRing r f = withRing r (f (v.ring r)) v := rfl
    rw [freed, onRing_, withRing_withRing, withRing_ring, onRing_, ring]
  have ring : (raised l (slotTrackerFreed r s)).ring r = s.ring r := slotTrackerFreed_ring r r s
  have goes : releaseRecord r (raised l s) = checkComplete r (evalMarks r
      ((dropRecord r (slotOf (s.ring r) (s.ring r).prod) (raised l s)).onRing r fun g => { g with prod := g.prod + 1 })) := rfl
  rw [goes, drops, evalMarks_advance, ring, checkComplete_advance (g := advancedRing ..) commit none own]
  exact raised_raised _ _ (withRing ..)

/-! ## The steps that can be held (R96 steps 2 and 3; log 53) -/

/-- Events of the ring monitor behind those of `s` find a place each where there is room for as many. -/
theorem eventRoom_raised {l : List EventReq} {s : State} (own : ∀ q ∈ l, q.block = .rmn) (quiet : s.lif.injWaiting = []) :
    (raised l s).eventRoom .rmn = true ↔ RoomForEvents .rmn l.length s := by
  have all : l.countP (fun q => q.block == .rmn) = l.length := List.countP_eq_length.mpr fun q hq => by simp [own q hq]
  have waits : (raised l s).waits .rpw = false := (blocked_quiet _ .rpw quiet).1
  have count : (raised l s).rpw.events.countP (fun q => q.block == .rmn) =
      s.rpw.events.countP (fun q => q.block == .rmn) + l.length := by
    rw [show (raised l s).rpw.events = s.rpw.events ++ l from rfl, List.countP_append, all]
  rw [State.eventRoom, waits, count, show (raised l s).lif = s.lif from rfl]
  simp only [Config.injectionDepth, Bool.not_false, Bool.true_and, RoomForEvents, Nat.add_assoc]
  exact decide_eq_true_iff

/-- One more event of the ring monitor is held where it finds no room (log 53). -/
theorem heldBehind_raised {l : List EventReq} {q : EventReq} {s : State} (own : ∀ p ∈ l ++ [q], p.block = .rmn)
    (quiet : s.lif.injWaiting = []) :
    (raised l s).heldBehind (raised (l ++ [q]) s) .rmn = true ↔ ¬RoomForEvents .rmn (l.length + 1) s := by
  have more : (raised l s).rpw.events.length < (raised (l ++ [q]) s).rpw.events.length := by
    simp [raised]
  have room := eventRoom_raised own quiet
  rw [List.length_append, List.length_singleton] at room
  rw [State.heldBehind, Bool.and_eq_true, decide_eq_true more, ← room]
  simp

/-- FRAME_MALFORMED of the slot at P (R97). -/
def lengthEvent (r : Fin 16) (g : Ring) : EventReq := event .rmn .frameMalformed .ring r.val g.prod.toNat 3 0

/-- REWRITE_SKIPPED of the slot at P (R98). -/
def skipEvent (r : Fin 16) (g : Ring) (code tid : Nat) : EventReq := event .rmn .rewriteSkipped .ring r.val g.prod.toNat code tid

/-- A command newer than those pending joins behind them (R77). -/
theorem addPending_newest {p : PendingCmd} {c : Crane} (newest : ∀ q ∈ c.cmds, q.seq ≠ p.seq ∧ q.stamp ≤ p.stamp) :
    addPending p c = commandFiled p c := by
  have others : (c.cmds.filter fun q => q.seq != p.seq) = c.cmds :=
    List.filter_eq_self.mpr fun q hq => by simp [(newest q hq).1]
  have last : ∀ l : List PendingCmd, (∀ q ∈ l, q.stamp ≤ p.stamp) → insertCmd p l = l ++ [p] := by
    intro l
    induction l with
    | nil => exact fun _ => rfl
    | cons q l ih =>
      intro old
      have tail := ih fun x hx => old x (List.mem_cons_of_mem q hx)
      rw [insertCmd, if_pos (old q List.mem_cons_self), tail]
      rfl
  have inserted : insertCmd p c.cmds = c.cmds ++ [p] := last _ fun q hq => (newest q hq).2
  unfold addPending commandFiled
  dsimp only
  rw [others, inserted]
  by_cases short : c.cmds.length < 4
  · rw [if_neg (by simp only [List.length_append, List.length_singleton, Config.pendingCommands]; omega), if_pos short]
  · have some : c.cmds ≠ [] := fun none => short (by rw [none]; decide)
    rw [if_pos (by simp only [List.length_append, List.length_singleton, Config.pendingCommands]; omega), if_neg short,
      List.drop_append_of_le_length (List.length_pos_of_ne_nil some)]
    rfl

/-! ## The length and the command (R97) -/

section
variable {r : Fin 16} {c : Commit} {s : State} {e : SlotEntry} {t : Nat} {told : Bool} {l : List EventReq}
  (commit : (s.ring r).commit = some c) (none : (s.ring r).outstanding = 0) (own : c.byRequest = false)
include commit none own

/-- Behind a step that raises nothing the record is released (R96). -/
theorem measureSlot_passes {v : State} (step : onRecord r (fun i e s => lengthAndCommand r i e t s) (raised l s) = raised l v)
    (rpw : v.rpw = s.rpw) (ring : v.ring r = s.ring r) : measureSlot r t told (raised l s) =
      raised (l ++ markEvent r (s.ring r) ((s.ring r).prod + 1 - (s.ring r).cons).toNat)
        (withRing r (downlinkAdvanced (s.ring r) c) (slotTrackerFreed r v)) := by
  have same : (raised l v).rpw = (raised l s).rpw := by simp only [raised, rpw]
  have silent : (raised l s).heldBehind (raised l v) .rmn = false :=
    heldBehind_silent (raised l s) (raised l v) .rmn (by rw [same])
  have goes : measureSlot r t told (raised l s) = releaseRecord r (raised l v) := by
    rw [← step] at silent ⊢
    exact if_neg (ne_true_of_eq_false silent)
  rw [goes, releaseRecord_raised (s := v) l (by rw [ring]; exact commit) (by rw [ring]; exact none) own, ring]

/-- Behind a step that raises an event the record is released where the events have each a place, and the commit is held
otherwise (R96; log 53). -/
theorem measureSlot_tells {q : EventReq} (quiet : s.lif.injWaiting = []) (rmn : ∀ p ∈ l ++ [q], p.block = .rmn)
    (step : onRecord r (fun i e s => lengthAndCommand r i e t s) (raised l s) = raised (l ++ [q]) s) :
    (RoomForEvents .rmn (l.length + 1) s → measureSlot r t told (raised l s) =
      raised ((l ++ [q]) ++ markEvent r (s.ring r) ((s.ring r).prod + 1 - (s.ring r).cons).toNat)
        (withRing r (downlinkAdvanced (s.ring r) c) (slotTrackerFreed r s))) ∧
    (¬RoomForEvents .rmn (l.length + 1) s → measureSlot r t told (raised l s) = raised (l ++ [q])
      (withMidway r (some { runTime := t, measured := true, told := told, givenUp := false }) s)) := by
  have held := heldBehind_raised rmn quiet
  have goes : measureSlot r t told (raised l s) = if (raised l s).heldBehind (raised (l ++ [q]) s) .rmn then
      setMidway r (some { runTime := t, measured := true, told := told, givenUp := false }) (raised (l ++ [q]) s)
      else releaseRecord r (raised (l ++ [q]) s) := by
    rw [← step]
    rfl
  constructor
  · intro room
    rw [goes, if_neg (fun h => held.mp h room), releaseRecord_raised (l ++ [q]) commit none own]
  · intro full
    rw [goes, if_pos (held.mpr full)]
    rfl

end

/-- Step 3 on a record without header facts does nothing (R97). -/
theorem lengthAndCommand_none {r : Fin 16} {i : Word} {e : SlotEntry} {t : Nat} {s : State} (h : s.recordFacts e = none) :
    lengthAndCommand r i e t s = s := by rw [lengthAndCommand, h]

/-- What step 3 does with the header facts of the record at P (R97, R77). -/
structure Measures (r : Fin 16) (c : Commit) (f : Facts) (time stamp : Nat) (told : Bool) (l : List EventReq) (s : State)
    (out : State) : Prop where
  malformed : f.len < 32 ∨ (s.ring r).desc.slotSize < f.len → RoomForEvents .rmn (l.length + 1) s → out =
    raised ((l ++ [lengthEvent r (s.ring r)]) ++ markEvent r (s.ring r) ((s.ring r).prod + 1 - (s.ring r).cons).toNat)
      (withRing r (downlinkAdvanced (s.ring r) c) (slotTrackerFreed r s))
  held : f.len < 32 ∨ (s.ring r).desc.slotSize < f.len → ¬RoomForEvents .rmn (l.length + 1) s → out =
    raised (l ++ [lengthEvent r (s.ring r)])
      (withMidway r (some { runTime := time, measured := true, told := told, givenUp := false }) s)
  unknown : 32 ≤ f.len → f.len ≤ (s.ring r).desc.slotSize → s.findTerm f.tid = none → out =
    raised (l ++ markEvent r (s.ring r) ((s.ring r).prod + 1 - (s.ring r).cons).toNat)
      (withRing r (downlinkAdvanced (s.ring r) c) (slotTrackerFreed r s))
  filed : ∀ i k, 32 ≤ f.len → f.len ≤ (s.ring r).desc.slotSize → s.findTerm f.tid = some i → (s.entry i).ctx = some k →
    (s.crane k).st ≠ .unbound → (∀ q ∈ (s.crane k).cmds, q.seq ≠ f.seq ∧ q.stamp ≤ stamp) → out =
    raised (l ++ markEvent r (s.ring r) ((s.ring r).prod + 1 - (s.ring r).cons).toNat)
      (withRing r (downlinkAdvanced (s.ring r) c)
        (withCrane k (commandFiled { seq := f.seq, stamp := stamp } (s.crane k)) (slotTrackerFreed r s)))

/-- Step 3 and what follows it, on a record with header facts. -/
theorem measureSlot_facts {r : Fin 16} {c : Commit} {s : State} {e : SlotEntry} {f : Facts} {time stamp : Nat} {told : Bool}
    {l : List EventReq} (quiet : s.lif.injWaiting = []) (commit : (s.ring r).commit = some c)
    (none : (s.ring r).outstanding = 0) (own : c.byRequest = false) (at_ : AtP r e s) (facts : s.recordFacts e = some f)
    (stamps : s.stampOf e time = stamp) (rmn : ∀ p ∈ l, p.block = .rmn) :
    Measures r c f time stamp told l s (measureSlot r time told (raised l s)) := by
  have here : AtP r e (raised l s) := ⟨at_.found, at_.index⟩
  have step : onRecord r (fun i e s => lengthAndCommand r i e time s) (raised l s) =
      if badLength (s.ring r).desc f then raised (l ++ [lengthEvent r (s.ring r)]) s
      else fileCommand f.tid { seq := f.seq, stamp := stamp } (raised l s) := by
    have facts_ : (raised l s).recordFacts e = some f := facts
    have stamps_ : (raised l s).stampOf e time = stamp := stamps
    rw [onRecord_atP here, lengthAndCommand, facts_]
    dsimp only
    rw [stamps_]
    refine if_congr Iff.rfl ?_ rfl
    exact (raised_raised l [lengthEvent r (s.ring r)] s)
  have bad (h : f.len < 32 ∨ (s.ring r).desc.slotSize < f.len) : badLength (s.ring r).desc f = true := by
    simpa [badLength] using h
  have good (low : 32 ≤ f.len) (high : f.len ≤ (s.ring r).desc.slotSize) : ¬badLength (s.ring r).desc f = true := by
    simp [badLength, low, high]
  have all : ∀ p ∈ l ++ [lengthEvent r (s.ring r)], p.block = .rmn := by
    intro p hp
    rcases List.mem_append.mp hp with old | new
    · exact rmn p old
    · rw [List.mem_singleton.mp new]
      rfl
  constructor
  · exact fun h => (measureSlot_tells commit none own quiet all (step.trans (if_pos (bad h)))).1
  · exact fun h => (measureSlot_tells commit none own quiet all (step.trans (if_pos (bad h)))).2
  · intro low high unknown
    refine measureSlot_passes commit none own (step.trans ((if_neg (good low high)).trans ?_)) rfl rfl
    rw [fileCommand, show (raised l s).findTerm f.tid = .none from unknown]
  · intro i k low high known bound supervised newest
    have files : fileCommand f.tid { seq := f.seq, stamp := stamp } (raised l s) =
        raised l (withCrane k (commandFiled { seq := f.seq, stamp := stamp } (s.crane k)) s) := by
      rw [fileCommand, show (raised l s).findTerm f.tid = some i from known]
      dsimp only
      rw [show ((raised l s).entry i).ctx = some k from bound]
      dsimp only
      refine (if_neg supervised).trans ?_
      rw [← addPending_newest newest]
      rfl
    rw [measureSlot_passes commit none own (step.trans ((if_neg (good low high)).trans files)) rfl rfl, slotTrackerFreed_withCrane]

/-- A record without header facts, or no record, is released at once (R96). -/
theorem measureSlot_noFacts {r : Fin 16} {c : Commit} {s : State} {time : Nat} {told : Bool}
    {l : List EventReq} (commit : (s.ring r).commit = some c)
    (none : (s.ring r).outstanding = 0) (own : c.byRequest = false)
    (at_ : EmptyAtP r s ∨ ∃ e, AtP r e s ∧ s.recordFacts e = Option.none) : measureSlot r time told (raised l s) =
      raised (l ++ markEvent r (s.ring r) ((s.ring r).prod + 1 - (s.ring r).cons).toNat)
        (withRing r (downlinkAdvanced (s.ring r) c) (slotTrackerFreed r s)) := by
  refine measureSlot_passes commit none own ?_ rfl rfl
  rcases at_ with empty | ⟨e, at_, facts⟩
  · exact onRecord_empty (s := raised l s) empty _
  · rw [onRecord_atP (s := raised l s) ⟨at_.found, at_.index⟩]
    exact lengthAndCommand_none facts

/-! ## The beginning of a commit (R96 steps 1 and 2, R98) -/

/-- A commit begins on a slot whose record reports no skip. -/
theorem beginSlot_silent {r : Fin 16} {s : State} {told : Bool}
    (at_ : EmptyAtP r s ∨ ∃ e, AtP r e s ∧ s.skipCauseOf e = none) :
    beginSlot r told s = measureSlot r s.now told (raised [] s) := by
  have fresh : dropStale r (slotOf (s.ring r) (s.ring r).prod) (s.ring r).prod s = s :=
    at_.elim dropStale_empty fun ⟨_, at_, _⟩ => dropStale_atP at_
  have silent : onRecord r (reportSkip r) s = s := by
    rcases at_ with empty | ⟨e, at_, none⟩
    · exact onRecord_empty empty _
    · rw [onRecord_atP at_, reportSkip, none]
  have skips : skipStep r told s = s := by
    rw [skipStep, silent]
    exact ite_self s
  have notHeld : s.heldBehind s .rmn = false := heldBehind_silent s s .rmn le_rfl
  have said : (told || decide (s.rpw.events.length < s.rpw.events.length)) = told := by simp
  unfold beginSlot
  dsimp only
  rw [fresh, skips, if_neg (ne_true_of_eq_false notHeld), said, raised_nil]

/-- A commit begins on a slot whose record reports a skip: REWRITE_SKIPPED, once for the slot (R98). -/
theorem beginSlot_skips {r : Fin 16} {s : State} {told : Bool} {e : SlotEntry} {q : EventReq} (quiet : s.lif.injWaiting = [])
    (at_ : AtP r e s) (reports : reportSkip r (s.ring r).prod e s = raised [q] s) (rmn : q.block = .rmn) :
    (told = true ∨ RoomForEvents .rmn 1 s →
      beginSlot r told s = measureSlot r s.now true (raised (if told then [] else [q]) s)) ∧
    (told = false → ¬RoomForEvents .rmn 1 s → beginSlot r told s = raised [q]
      (withMidway r (some { runTime := s.now, measured := false, told := true, givenUp := false }) s)) := by
  have fresh := dropStale_atP at_
  have reported : skipStep r told s = if told then s else raised [q] s := by
    rw [skipStep, onRecord_atP at_, reports]
  have begins : beginSlot r told s =
      if s.heldBehind (skipStep r told s) .rmn then
        setMidway r (some { runTime := s.now, measured := false, told := true, givenUp := false }) (skipStep r told s)
      else measureSlot r s.now (told || decide (s.rpw.events.length < (skipStep r told s).rpw.events.length))
        (skipStep r told s) := by
    unfold beginSlot
    dsimp only
    rw [fresh]
  rw [begins, reported]
  cases told with
  | true =>
    refine ⟨fun _ => ?_, nofun⟩
    have notHeld : s.heldBehind s .rmn = false := heldBehind_silent s s .rmn le_rfl
    rw [if_pos rfl, if_neg (ne_true_of_eq_false notHeld), if_pos rfl, raised_nil]
    rfl
  | false =>
    have held := heldBehind_raised (l := []) (q := q) (s := s) (by simpa using rmn) quiet
    rw [raised_nil, List.nil_append] at held
    have more : (false || decide (s.rpw.events.length < (raised [q] s).rpw.events.length)) = true := by simp [raised]
    rw [if_neg Bool.false_ne_true]
    refine ⟨fun room => ?_, fun _ full => ?_⟩
    · rw [if_neg (fun h => held.mp h (room.resolve_left Bool.false_ne_true)), more, if_neg Bool.false_ne_true]
    · rw [if_pos (held.mpr full)]
      rfl

/-- The slot at P of a commit in progress is taken at once, unless it is held behind an event (R41, R96). -/
theorem exec_downlinkSlotCommit {r : Fin 16} {s : State} {c : Commit} (released : s.pins.inReset = false)
    (quiet : s.lif.injWaiting = []) (working : s.working = true) (enabled : (s.ring r).state = .enabled)
    (downlink : (s.ring r).desc.dir = .downlink) (commit : (s.ring r).commit = some c) (left : (s.ring r).prod ≠ c.target) :
    exec (.downlinkSlotCommit r) s = .next (if s.slotFree r then settle (commitDownlink r s) else s) := by
  have due : s.downlinkCommitDue r = s.slotFree r := by
    simp [State.downlinkCommitDue, released, working, State.slotsLeft, commit, enabled, left, downlink,
      (blocked_quiet s .rmn quiet).2.2]
  change Host.Outcome.next (stepWhen (s.downlinkCommitDue r) (commitDownlink r) s) = _
  rw [due]
  rfl

end Sys2Proof.Machine
end

section
/-! # The outcomes of a downlink slot's commit (05_downlink_rewriting.md, R89, R96 to R98) -/

namespace Sys2Proof.Machine

open Sys2Proof.Claims

theorem slotTrackerFreed_atP {r : Fin 16} {e : SlotEntry} {s : State} (h : AtP r e s) :
    slotTrackerFreed r s = match e.tracker with
      | some k => trackerFreed k s
      | none => s := by
  rw [slotTrackerFreed, h.found]
  cases h : e.tracker with
  | none => simp [h]
  | some k => simp [h]

theorem slotTrackerFreed_empty {r : Fin 16} {s : State} (h : EmptyAtP r s) : slotTrackerFreed r s = s := by
  rw [slotTrackerFreed, h]
  rfl

theorem reportSkip_eq {r : Fin 16} {e : SlotEntry} {s : State} {w : SkipCause} {tid : Nat} (cause : s.skipCauseOf e = some w)
    (facts : s.recordFacts e = none ∧ tid = 0xFFFF ∨ ∃ f, s.recordFacts e = some f ∧ tid = f.tid.toNat) :
    reportSkip r (s.ring r).prod e s = raised [skipEvent r (s.ring r) (skipCode w) tid] s := by
  rw [reportSkip, cause]
  rcases facts with ⟨none, rfl⟩ | ⟨f, some, rfl⟩
  · rw [none]
    rfl
  · rw [some]
    rfl

theorem noEvents_rmn : ∀ q ∈ ([] : List EventReq), q.block = .rmn := by simp

theorem skipsOnce_nil (told : Bool) (q : EventReq) : (if told then [] else [q]) = [] ↔ told = true := by
  cases told <;> simp

theorem skipsOnce_block (told : Bool) {q : EventReq} (rmn : q.block = .rmn) :
    ∀ p ∈ (if told then [] else [q]), p.block = .rmn := by
  cases told <;> simp [rmn]

theorem skipCauseOf_opened {s : State} {k : Fin 8} (i : Word) (opened : (s.tracker k).st = .opened) :
    s.skipCauseOf (.tracked k i) = some .noBeat1 := if_pos opened

theorem skipCauseOf_done {s : State} {k : Fin 8} (i : Word) (done : (s.tracker k).st = .done) :
    s.skipCauseOf (.tracked k i) = none := if_neg (by rw [done]; decide)

theorem stampOf_opened {s : State} {k : Fin 8} (i : Word) (t : Nat) (opened : (s.tracker k).st = .opened) :
    s.stampOf (.tracked k i) t = t := if_neg (by rw [opened]; decide)

theorem stampOf_done {s : State} {k : Fin 8} (i : Word) (t : Nat) (done : (s.tracker k).st = .done) :
    s.stampOf (.tracked k i) t = (s.tracker k).stamp.getD t := if_pos done

/-- A slot of downlink ring `r` has still to commit, `c` being the ring's commit, which no request caused (R41). -/
structure Committing (r : Fin 16) (c : Commit) (s : State) : Prop where
  released : s.pins.inReset = false
  quiet : s.lif.injWaiting = []
  working : s.working = true
  enabled : (s.ring r).state = .enabled
  downlink : (s.ring r).desc.dir = .downlink
  commit : (s.ring r).commit = some c
  left : (s.ring r).prod ≠ c.target
  answered : (s.ring r).outstanding = 0
  own : c.byRequest = false

/-- The slot at P commits with `events`, from `u` on (R41, R96). -/
def SlotCommits (r : Fin 16) (c : Commit) (events : List EventReq) (s u : State) : Prop :=
  exec (.downlinkSlotCommit r) s = .next
    (raised (events ++ markEvent r (s.ring r) ((s.ring r).prod + 1 - (s.ring r).cons).toNat)
      (withRing r (downlinkAdvanced (s.ring r) c) u))

/-- The commit of the slot at P is held behind `events` (log 53). -/
def SlotHolds (r : Fin 16) (time : Nat) (measured told : Bool) (events : List EventReq) (s : State) : Prop :=
  exec (.downlinkSlotCommit r) s = .next (raised events
    (withMidway r (some { runTime := time, measured := measured, told := told, givenUp := false }) s))

/-- What becomes of the slot at P with header facts `f`, behind `events` (R97, R77). -/
def SlotMeasures (r : Fin 16) (c : Commit) (f : Facts) (events : List EventReq) (time stamp : Nat) (told : Bool) (s u : State) :
    Prop :=
  (f.len < 32 ∨ (s.ring r).desc.slotSize < f.len → RoomForEvents .rmn (events.length + 1) s →
    SlotCommits r c (events ++ [lengthEvent r (s.ring r)]) s u) ∧
  (f.len < 32 ∨ (s.ring r).desc.slotSize < f.len → events = [] ∨ RoomForEvents .rmn 1 s →
    ¬RoomForEvents .rmn (events.length + 1) s → SlotHolds r time true told (events ++ [lengthEvent r (s.ring r)]) s) ∧
  (32 ≤ f.len → f.len ≤ (s.ring r).desc.slotSize → events = [] ∨ RoomForEvents .rmn 1 s → s.findTerm f.tid = none →
    SlotCommits r c events s u) ∧
  (∀ i k, 32 ≤ f.len → f.len ≤ (s.ring r).desc.slotSize → events = [] ∨ RoomForEvents .rmn 1 s →
    s.findTerm f.tid = some i → (s.entry i).ctx = some k → (s.crane k).st ≠ .unbound →
    (∀ q ∈ (s.crane k).cmds, q.seq ≠ f.seq ∧ q.stamp ≤ stamp) →
    SlotCommits r c events s (withCrane k (commandFiled { seq := f.seq, stamp := stamp } (s.crane k)) u))

/-- `s` with ring `r`'s commit not held. -/
def slotResumed (r : Fin 16) (s : State) : State := withMidway r none s

theorem slotResumed_self {r : Fin 16} {s : State} (h : s.rmn.midway[r] = none) : slotResumed r s = s := by
  have entry : s.rmn.midway.set r none = s.rmn.midway := by
    rw [← h]
    exact Vector.set_getElem_self r.isLt
  simp [slotResumed, withMidway, entry]

section
variable {r : Fin 16} {c : Commit} {s : State} (h : Committing r c s) (free : s.slotFree r = true)
include h free

theorem slotCommits_of {events : List EventReq} {u : State} (calm : u.lif.injWaiting = []) (goes : commitDownlink r s =
    raised (events ++ markEvent r (s.ring r) ((s.ring r).prod + 1 - (s.ring r).cons).toNat)
      (withRing r (downlinkAdvanced (s.ring r) c) u)) : SlotCommits r c events s u := by
  rw [SlotCommits, exec_downlinkSlotCommit h.released h.quiet h.working h.enabled h.downlink h.commit h.left, if_pos free, goes]
  exact congrArg Host.Outcome.next (settle_idle _ calm)

theorem slotHolds_of {time : Nat} {measured told : Bool} {events : List EventReq} (goes : commitDownlink r s = raised events
    (withMidway r (some { runTime := time, measured := measured, told := told, givenUp := false }) (slotResumed r s))) :
    SlotHolds r time measured told events s := by
  have twice (m : Option Midway) : withMidway r m (slotResumed r s) = withMidway r m s := by simp [slotResumed, withMidway]
  rw [SlotHolds, exec_downlinkSlotCommit h.released h.quiet h.working h.enabled h.downlink h.commit h.left, if_pos free, goes,
    twice]
  exact congrArg Host.Outcome.next (settle_idle _ h.quiet)

theorem slotMeasures_of {f : Facts} {events : List EventReq} {time stamp : Nat} {told : Bool} {u : State}
    (same : slotTrackerFreed r (slotResumed r s) = u)
    (goes : events = [] ∨ RoomForEvents .rmn 1 s →
      Measures r c f time stamp told events (slotResumed r s) (commitDownlink r s)) :
    SlotMeasures r c f events time stamp told s u := by
  have calm : u.lif.injWaiting = [] := by
    rw [← same, slotTrackerFreed_lif]
    exact h.quiet
  subst same
  refine ⟨fun bad more => ?_, fun bad first full => ?_, fun low high first unknown => ?_,
    fun i k low high first known bound supervised newest => ?_⟩
  · have first : events = [] ∨ RoomForEvents .rmn 1 s := by
      rcases events with _ | ⟨q, l⟩
      · exact .inl rfl
      · have length : (q :: l).length = l.length + 1 := rfl
        exact .inr (by unfold RoomForEvents at more ⊢; omega)
    exact slotCommits_of h free calm ((goes first).malformed bad more)
  · exact slotHolds_of h free ((goes first).held bad full)
  · exact slotCommits_of h free calm ((goes first).unknown low high unknown)
  · exact slotCommits_of h free calm ((goes first).filed i k low high known bound supervised newest)

/-- A record without header facts, or no record, commits at once. -/
theorem slotCommits_noFacts {l : List EventReq} {time : Nat} {told : Bool} {u : State}
    (same : slotTrackerFreed r (slotResumed r s) = u)
    (at_ : EmptyAtP r (slotResumed r s) ∨ ∃ e, AtP r e (slotResumed r s) ∧ (slotResumed r s).recordFacts e = none)
    (goes : commitDownlink r s = measureSlot r time told (raised l (slotResumed r s))) : SlotCommits r c l s u := by
  rw [measureSlot_noFacts (s := slotResumed r s) h.commit h.answered h.own at_, same] at goes
  exact slotCommits_of h free (by rw [← same, slotTrackerFreed_lif]; exact h.quiet) goes

/-- A commit that has measured its record releases it. -/
theorem slotCommits_measured {u : State} (same : slotTrackerFreed r (slotResumed r s) = u)
    (goes : commitDownlink r s = releaseRecord r (slotResumed r s)) : SlotCommits r c [] s u := by
  rw [← raised_nil (slotResumed r s), releaseRecord_raised (s := slotResumed r s) [] h.commit h.answered h.own, same] at goes
  exact slotCommits_of h free (by rw [← same, slotTrackerFreed_lif]; exact h.quiet) goes

end

theorem tracked_atP {r : Fin 16} {s : State} {k : Fin 8}
    (found : mapGet (s.ring r).slotMap (slotOf (s.ring r) (s.ring r).prod) = some (.tracked k (s.ring r).prod)) :
    AtP r (.tracked k (s.ring r).prod) (slotResumed r s) ∧
      slotTrackerFreed r (slotResumed r s) = trackerFreed k (slotResumed r s) :=
  have at_ : AtP r (.tracked k (s.ring r).prod) (slotResumed r s) := ⟨found, rfl⟩
  ⟨at_, slotTrackerFreed_atP at_⟩

theorem untracked_atP {r : Fin 16} {s : State} (e : SlotEntry) (index : e.index = (s.ring r).prod) (plain : e.tracker = none)
    (found : mapGet (s.ring r).slotMap (slotOf (s.ring r) (s.ring r).prod) = some e) :
    AtP r e (slotResumed r s) ∧ slotTrackerFreed r (slotResumed r s) = slotResumed r s :=
  have at_ : AtP r e (slotResumed r s) := ⟨found, index⟩
  ⟨at_, (slotTrackerFreed_atP at_).trans (by rw [plain])⟩

/-! ## A commit that begins -/

/-- What becomes of the slot at P as its commit begins, `told` where its REWRITE_SKIPPED has been raised (R96, R98). -/
def SlotBegins (r : Fin 16) (c : Commit) (told : Bool) (s u : State) : Prop :=
  let g := s.ring r
  let entry := mapGet g.slotMap (slotOf g g.prod)
  let first (code tid : Nat) : List EventReq := if told then [] else [skipEvent r g code tid]
  let waits (code tid : Nat) : Prop :=
    told = false → ¬RoomForEvents .rmn 1 s → SlotHolds r s.tbs.runClock false true [skipEvent r g code tid] s
  (entry = none ∨ entry = some (.passed g.prod) → SlotCommits r c [] s u) ∧
  (∀ w, entry = some (.skipped w none g.prod) →
    (told = true ∨ RoomForEvents .rmn 1 s → SlotCommits r c (first (skipCode w) 0xFFFF) s u) ∧ waits (skipCode w) 0xFFFF) ∧
  (∀ w f, entry = some (.skipped w (some f) g.prod) →
    SlotMeasures r c f (first (skipCode w) f.tid.toNat) s.tbs.runClock s.tbs.runClock true s u ∧ waits (skipCode w) f.tid.toNat) ∧
  (∀ k, entry = some (.tracked k g.prod) →
    let f := (s.tracker k).facts
    ((s.tracker k).st = .opened →
      SlotMeasures r c f (first 5 f.tid.toNat) s.tbs.runClock s.tbs.runClock true s (trackerFreed k u) ∧ waits 5 f.tid.toNat) ∧
    ((s.tracker k).st = .done →
      SlotMeasures r c f [] s.tbs.runClock ((s.tracker k).stamp.getD s.tbs.runClock) told s (trackerFreed k u)))

/-- A skip told as the commit begins: with facts its record is measured behind it, and without a place it is held (R98). -/
theorem slotMeasures_skip {r : Fin 16} {c : Commit} {s : State} (h : Committing r c s) (free : s.slotFree r = true) {told : Bool}
    (begins : commitDownlink r s = beginSlot r told (slotResumed r s)) {e : SlotEntry} {u : State}
    (at_ : AtP r e (slotResumed r s)) (same : slotTrackerFreed r (slotResumed r s) = u) {w : SkipCause} {f : Facts}
    (cause : (slotResumed r s).skipCauseOf e = some w) (facts : (slotResumed r s).recordFacts e = some f)
    (stamp : (slotResumed r s).stampOf e s.now = s.now) :
    SlotMeasures r c f (if told then [] else [skipEvent r (s.ring r) (skipCode w) f.tid.toNat]) s.now s.now true s u ∧
    (told = false → ¬RoomForEvents .rmn 1 s →
      SlotHolds r s.now false true [skipEvent r (s.ring r) (skipCode w) f.tid.toNat] s) := by
  obtain ⟨goes, stays⟩ := beginSlot_skips (told := told) (s := slotResumed r s) h.quiet at_
    (reportSkip_eq cause (.inr ⟨f, facts, rfl⟩)) rfl
  refine ⟨slotMeasures_of h free same fun room => ?_, fun untold full => slotHolds_of h free (begins.trans (stays untold full))⟩
  rw [begins, goes (room.imp_left (skipsOnce_nil _ _).mp)]
  exact measureSlot_facts (s := slotResumed r s) h.quiet h.commit h.answered h.own at_ facts stamp (skipsOnce_block _ rfl)

theorem slotBegins_of {r : Fin 16} {c : Commit} {s : State} (h : Committing r c s) (free : s.slotFree r = true) {told : Bool}
    (begins : commitDownlink r s = beginSlot r told (slotResumed r s)) : SlotBegins r c told s (slotResumed r s) := by
  refine ⟨?_, fun w found => ?_, fun w f found => ?_, fun k found => ?_⟩
  · rintro (empty | passed)
    · exact slotCommits_noFacts h free (slotTrackerFreed_empty empty) (.inl empty) (begins.trans (beginSlot_silent (.inl empty)))
    · obtain ⟨at_, same⟩ := untracked_atP (.passed (s.ring r).prod) rfl rfl passed
      exact slotCommits_noFacts h free same (.inr ⟨_, at_, rfl⟩) (begins.trans (beginSlot_silent (.inr ⟨_, at_, rfl⟩)))
  · obtain ⟨at_, same⟩ := untracked_atP (.skipped w none (s.ring r).prod) rfl rfl found
    obtain ⟨goes, stays⟩ := beginSlot_skips (told := told) (s := slotResumed r s) h.quiet at_
      (reportSkip_eq (tid := 0xFFFF) rfl (.inl ⟨rfl, rfl⟩)) rfl
    exact ⟨fun room => slotCommits_noFacts h free same (.inr ⟨_, at_, rfl⟩) (begins.trans (goes room)),
      fun untold full => slotHolds_of h free (begins.trans (stays untold full))⟩
  · obtain ⟨at_, same⟩ := untracked_atP (.skipped w (some f) (s.ring r).prod) rfl rfl found
    exact slotMeasures_skip h free begins at_ same rfl rfl rfl
  · obtain ⟨at_, same⟩ := tracked_atP found
    refine ⟨fun opened => ?_, fun done => slotMeasures_of h free same fun _ => ?_⟩
    · exact slotMeasures_skip h free begins at_ same (skipCauseOf_opened _ opened) rfl (stampOf_opened _ _ opened)
    · rw [begins, beginSlot_silent (.inr ⟨_, at_, skipCauseOf_done (s := slotResumed r s) _ done⟩)]
      exact measureSlot_facts (s := slotResumed r s) h.quiet h.commit h.answered h.own at_ rfl
        (stampOf_done (s := slotResumed r s) _ _ done) noEvents_rmn

/-! ## A commit that was held -/

/-- A commit held and not given up goes on where its step stood (R96; log 53). -/
theorem commitDownlink_held {r : Fin 16} {s : State} {m : Midway} (held : s.rmn.midway[r] = some m) (kept : m.givenUp = false) :
    commitDownlink r s = if m.measured then releaseRecord r (slotResumed r s)
      else measureSlot r m.runTime m.told (slotResumed r s) := by
  unfold commitDownlink
  rw [held]
  exact if_neg (ne_true_of_eq_false kept)

/-- A commit given up begins anew (R96; log 14). -/
theorem commitDownlink_givenUp {r : Fin 16} {s : State} {m : Midway} (held : s.rmn.midway[r] = some m)
    (up : m.givenUp = true) : commitDownlink r s = beginSlot r m.told (slotResumed r s) := by
  unfold commitDownlink
  rw [held]
  exact if_pos up

/-- Settles O24: the commit begins, begins anew, or goes on from the step that held it. -/
theorem downlinkSlotCommits : Obligations.DownlinkSlotCommits := by
  intro r s c released quiet working enabled downlink commit left answered own
  have h : Committing r c s := ⟨released, quiet, working, enabled, downlink, commit, left, answered, own⟩
  have begins {told : Bool} (free : s.slotFree r = true) (goes : commitDownlink r s = beginSlot r told (slotResumed r s)) :=
    slotBegins_of h free goes
  have slotFree := slotFree_iff s r
  have room_iff : s.eventRoom .rmn = true ↔ RoomForEvents .rmn 0 s := by
    have room := eventRoom_raised (l := []) (s := s) noEvents_rmn quiet
    rw [raised_nil] at room
    exact room
  refine ⟨fun fresh => ?_, fun m held up => ?_, fun m held kept => ⟨fun full => ?_, fun room measured => ?_, fun room unmeasured => ?_⟩⟩
  · have goes : commitDownlink r s = beginSlot r false (slotResumed r s) := by
      rw [slotResumed_self fresh, commitDownlink, fresh]
    have outcome := begins (slotFree.mpr fun m held => absurd (fresh.symm.trans held) nofun) goes
    rw [slotResumed_self fresh] at outcome
    exact outcome
  · refine begins (slotFree.mpr fun m' held' => ?_) (commitDownlink_givenUp held up)
    rw [held] at held'
    cases held'
    exact .inl up
  · have held_ : ¬s.slotFree r = true := fun free => by
      rcases slotFree.mp free m held with up | room
      · exact Bool.false_ne_true (kept.symm.trans up)
      · exact full (room_iff.mp room)
    rw [exec_downlinkSlotCommit released quiet working enabled downlink commit left, if_neg held_]
  · have free := slotFree.mpr fun m' _ => .inr (room_iff.mpr room)
    have goes := (commitDownlink_held held kept).trans (if_pos measured)
    refine ⟨?_, fun k found => slotCommits_measured h free (tracked_atP found).2 goes⟩
    rintro (empty | passed | ⟨w, f, skipped⟩)
    · exact slotCommits_measured h free (slotTrackerFreed_empty (s := slotResumed r s) empty) goes
    · exact slotCommits_measured h free (untracked_atP (.passed (s.ring r).prod) rfl rfl passed).2 goes
    · exact slotCommits_measured h free (untracked_atP (.skipped w f (s.ring r).prod) rfl rfl skipped).2 goes
  · have free := slotFree.mpr fun m' _ => .inr (room_iff.mpr room)
    have goes := (commitDownlink_held held kept).trans (if_neg (ne_true_of_eq_false unmeasured))
    rw [← raised_nil (slotResumed r s)] at goes
    have measures {e : SlotEntry} {f : Facts} {stamp : Nat} {u : State} (at_ : AtP r e (slotResumed r s))
        (same : slotTrackerFreed r (slotResumed r s) = u) (facts : (slotResumed r s).recordFacts e = some f)
        (stamps : (slotResumed r s).stampOf e m.runTime = stamp) : SlotMeasures r c f [] m.runTime stamp m.told s u :=
      slotMeasures_of h free same fun _ => goes ▸
        measureSlot_facts (s := slotResumed r s) quiet commit answered own at_ facts stamps noEvents_rmn
    refine ⟨?_, fun w f skipped => ?_, fun k tracked => ⟨fun opened => ?_, fun done => ?_⟩⟩
    · rintro (empty | passed | ⟨w, skipped⟩)
      · exact slotCommits_noFacts h free (slotTrackerFreed_empty (s := slotResumed r s) empty) (.inl empty) goes
      · obtain ⟨at_, same⟩ := untracked_atP (.passed (s.ring r).prod) rfl rfl passed
        exact slotCommits_noFacts h free same (.inr ⟨_, at_, rfl⟩) goes
      · obtain ⟨at_, same⟩ := untracked_atP (.skipped w none (s.ring r).prod) rfl rfl skipped
        exact slotCommits_noFacts h free same (.inr ⟨_, at_, rfl⟩) goes
    · obtain ⟨at_, same⟩ := untracked_atP (.skipped w (some f) (s.ring r).prod) rfl rfl skipped
      exact measures at_ same rfl rfl
    · obtain ⟨at_, same⟩ := tracked_atP tracked
      exact measures at_ same rfl (stampOf_opened (s := slotResumed r s) _ _ opened)
    · obtain ⟨at_, same⟩ := tracked_atP tracked
      exact measures at_ same rfl (stampOf_done (s := slotResumed r s) _ _ done)

end Sys2Proof.Machine
end

section
/-! # Samples and dispatched frames (07_quay_coverage_map.md, R130 to R136; 02, R43; 03, R49 to R51)

A sample folded or discarded, the directory step of a frame, and the release behind it. -/

namespace Sys2Proof.Machine

open Sys2Proof.Claims

/-! ## A sample (R132, R133, R135) -/

/-- A row with a sample of margin `margin` folded into cell `i` at run time `t` (R133). -/
def foldedRow (c : Cfg) (t : Nat) (margin : Int) (i : Fin 16) (row : Bin) : Bin :=
  { row with cells := upd row.cells i (foldCell c (16 * clampInt (-64) 63 margin) t) }

/-- Folding a sample does what R133 and R135 say, whatever the evaluation behind it makes of the hole flag and the preferred
cell. -/
theorem folded_foldedRow {c : Cfg} {t : Nat} {margin : Int} {i : Fin 16} {row new : Bin}
    (cells : new.cells = (foldedRow c t margin i row).cells) : Folded c t margin i row new := by
  have cell : new.cells[i] = foldCell c (16 * clampInt (-64) 63 margin) t row.cells[i] := by
    rw [cells]
    exact upd_self ..
  have m_ : new.cells[i].m = foldMargin c row.cells[i] (16 * clampInt (-64) 63 margin) := by rw [cell]; rfl
  have n_ : new.cells[i].n = min (row.cells[i].n + 1) 255 := by rw [cell]; rfl
  refine ⟨fun j other => ?_, n_, by rw [cell]; rfl, fun first => ?_, fun held => ?_, ?_⟩
  · rw [cells]
    exact upd_ne _ _ _ _ other
  · rw [m_]
    exact if_pos first
  · rw [m_]
    exact if_neg (Nat.pos_iff_ne_zero.mp held)
  · have st_ : new.cells[i].st = cellState c row.cells[i].st new.cells[i].m new.cells[i].n := by rw [m_, n_, cell]; rfl
    unfold cellState at st_
    rw [st_]
    cases row.cells[i].st <;> rfl

/-- `s` with one more sample counted folded. -/
def sampleFolded (s : State) : State := { s with cvm := { s.cvm with folded := min (s.cvm.folded + 1) 4294967295 } }

/-- `s` with one more sample counted discarded. -/
def sampleDiscarded (s : State) : State :=
  { s with cvm := { s.cvm with discarded := min (s.cvm.discarded + 1) 4294967295 } }

/-- A sample folded into its cell is counted, and its bin evaluated behind it. -/
theorem foldSample_spec (b : Fin 64) (i : Fin 16) (margin : Int) (cause : EvalCause) (s : State) :
    ∃ row events, foldSample b i margin cause s = raised events (withBin b row (sampleFolded s)) ∧
      Folded s.ccu.cfg s.now margin i (s.bin b) row ∧
      Evaluated s.ccu.cfg s.tdr.attach b (evalCode cause) (s.bin b) row events := by
  let u := withBin b (foldedRow s.ccu.cfg s.now margin i (s.bin b)) (sampleFolded s)
  have row : u.bin b = foldedRow s.ccu.cfg s.now margin i (s.bin b) := withBin_bin ..
  have same : (evaluatedRow u b).cells = (u.bin b).cells := rfl
  refine ⟨evaluatedRow u b, evaluationEvents u b cause, ?_, folded_foldedRow (same.trans (congrArg Bin.cells row)), ?_⟩
  · have folds : foldSample b i margin cause s = evalBin b cause u := rfl
    rw [folds, evalBin_raised, withBin_withBin]
  · exact evaluated_evaluatedRow (s := u) cause (by rw [row]; rfl) (by rw [row]; rfl)

/-- A sample that fails a test is counted discarded (R132). -/
theorem offerSample_discards {s : State} {bin cell : Nat} {margin : Int} (cause : EvalCause)
    (fails : ¬(bin < s.ccu.cfg.binCount ∧ cell ≠ 255 ∧ cell < s.ccu.cfg.cellCount ∧ margin ≠ -128)) :
    offerSample (some bin) cell margin cause s = sampleDiscarded s := by
  have target : sampleTarget s.ccu.cfg (some bin) cell margin = none := if_neg fails
  rw [offerSample, target]
  rfl

/-- A sample that passes the tests is folded (R132, R133). -/
theorem offerSample_folds {s : State} (b : Fin 64) (i : Fin 16) {margin : Int} (cause : EvalCause)
    (passes : b.val < s.ccu.cfg.binCount ∧ i.val ≠ 255 ∧ i.val < s.ccu.cfg.cellCount ∧ margin ≠ -128) :
    offerSample (some b.val) i.val margin cause s = foldSample b i margin cause s := by
  have target : sampleTarget s.ccu.cfg (some b.val) i.val margin = some (b, i) := by
    refine (if_pos passes).trans ?_
    simp [finOf]
  rw [offerSample, target]

/-! ## The directory step (R49 to R51) -/

/-- The directory step of a frame leaves all but the directory and its event; a terminal that is known, or none, raises none. -/
theorem dirStep_frame (r : Fin 16) (f : Frame) (t : Nat) (s : State) :
    ∃ u met, (dirStep r f t s).1 = raised met u ∧ u = { s with tdr := u.tdr } ∧
      (∀ q ∈ met, q.kind = .terminalLearned ∨ q.kind = .directoryFull) ∧
      (frameTid f = 0 ∨ frameTid f = 0xFFFF ∨ s.findTerm (frameTid f) ≠ none → met = []) ∧
      ∀ g, s.findTerm (frameTid f) = some g → u = touchTerm g f t s ∧ (dirStep r f t s).2 = some (dirResult g u) := by
  by_cases reserved : frameTid f = 0 ∨ frameTid f = 0xFFFF
  · refine ⟨s, [], ?_, rfl, by simp, fun _ => rfl, fun g known => absurd reserved (findTerm_not_reserved known)⟩
    rw [dirStep_reserved reserved, raised_nil]
  · unfold dirStep
    dsimp only
    rw [if_neg reserved]
    cases known : s.findTerm (frameTid f) with
    | some g => exact ⟨touchTerm g f t s, [], (raised_nil _).symm, rfl, by simp, fun _ => rfl, fun g' same => by
        cases same
        exact ⟨rfl, rfl⟩⟩
    | none =>
      have unknown {met : List EventReq} :
          frameTid f = 0 ∨ frameTid f = 0xFFFF ∨ (none : Option (Fin 256)) ≠ none → met = [] := by
        rintro (zero | top | some)
        · exact absurd (.inl zero) reserved
        · exact absurd (.inr top) reserved
        · exact absurd rfl some
      cases s.freeTermIndex with
      | some i =>
        refine ⟨touchTerm i f t (s.onEntry i fun _ =>
          { Terminal.reset with st := .learned, id := frameTid f, kind := kindOfFrame (frameKind f) }),
          [_], rfl, rfl, fun q hq => ?_, unknown, nofun⟩
        rw [List.mem_singleton.mp hq]
        exact .inl rfl
      | none =>
        refine ⟨s, [_], rfl, rfl, fun q hq => ?_, unknown, nofun⟩
        rw [List.mem_singleton.mp hq]
        exact .inr rfl

theorem touchTerm_entry (i : Fin 256) (f : Frame) (t : Nat) (s : State) : (touchTerm i f t s).entry i =
    { s.entry i with
      lastSeen := t
      frames := satInc Config.max32 (s.entry i).frames
      lastCell := newLastCell s.ccu.cfg (s.entry i) f
      lastMargin := if frameMargin f = -128 then (s.entry i).lastMargin else some (16 * frameMargin f)
      lastBin := newLastBin s.ccu.cfg (s.entry i) f } := upd_self ..

theorem touchTerm_entry_ne {i j : Fin 256} (f : Frame) (t : Nat) (s : State) (other : j ≠ i) :
    (touchTerm i f t s).entry j = s.entry j := upd_ne _ _ _ _ other

/-! ## The release behind a frame (R43) -/

/-- A head frame whose steps lead to `v` is released behind them. -/
theorem exec_dispatchFrame_released {s v : State} {e : DispatchEntry} {rest : List DispatchEntry} (h : Dispatches e rest s)
    (inTime : s.expiryFirst = false) (steps : beginFrame e s = releaseHead e v) (rmn : v.rmn = s.rmn)
    (lif : v.lif.injWaiting = []) : exec .dispatchFrame s = .next { v with rmn := frameReleased e rest s } := by
  have same : frameReleased e rest v = frameReleased e rest s := by
    unfold frameReleased
    rw [show v.buffer e.buf = s.buffer e.buf by simp only [State.buffer, rmn], rmn]
  rw [exec_dispatchFrame h.released h.quiet h.working h.head h.fresh inTime, steps,
    releaseHead_unpaused (by rw [rmn]; exact h.head) (by rw [rmn]; exact h.fresh) (by rw [rmn]; exact h.unpaused),
    headReleased, same]
  exact congrArg Host.Outcome.next (settle_idle _ lif)

/-- A frame of neither CRANE_STATUS nor REEFER_REPORT has no job step but the coverage step. -/
theorem beginFrame_plain {e : DispatchEntry} {s : State} (notStatus : frameKind (s.buffer e.buf).bytes ≠ 1)
    (notReport : frameKind (s.buffer e.buf).bytes ≠ 3) : beginFrame e s =
      finishFrame e (s.buffer e.buf).bytes (dirStep e.ring (s.buffer e.buf).bytes s.now s).2
        (dirStep e.ring (s.buffer e.buf).bytes s.now s).1 := by
  unfold beginFrame
  dsimp only
  rw [if_neg (fun both => notReport both.1), if_neg (fun both => notStatus both.1)]

/-- The one pair of a RADIO_SURVEY frame is its sample (R130). -/
theorem coverageStep_pair {f : Frame} {d : Option DirResult} {s : State} (kind : frameKind f = 4) (one : frameCount f = 1) :
    coverageStep f d s = offerSample (some (framePos f)) (pairCell f 0) (pairMargin f 0) .sample s := by
  have notStatus : ¬frameKind f = 1 := by omega
  unfold coverageStep
  dsimp only
  rw [if_neg notStatus, if_pos kind, one]
  rfl

/-- The header of an OTHER frame is its sample where its terminal has a home bin (R130). -/
theorem coverageStep_header {f : Frame} {d : DirResult} {b : Fin 64} {s : State} (kind : 5 ≤ frameKind f)
    (home : d.homeBin = some b) :
    coverageStep f (some d) s = offerSample (some b.val) (frameCell f) (frameMargin f) .sample s := by
  have notStatus : ¬frameKind f = 1 := by omega
  have notSurvey : ¬frameKind f = 4 := by omega
  unfold coverageStep
  dsimp only
  rw [if_neg notStatus, if_neg notSurvey, Option.bind_some, home]

/-- A sample that is offered is folded or counted discarded, and leaves what the coverage mapper does not own. -/
theorem offerSample_spec (bin cell : Nat) (margin : Int) (cause : EvalCause) (s : State) :
    let passes := bin < s.ccu.cfg.binCount ∧ cell ≠ 255 ∧ cell < s.ccu.cfg.cellCount ∧ margin ≠ -128
    SameBut false false false false false true false false true s (offerSample (some bin) cell margin cause s) ∧
    (¬passes → offerSample (some bin) cell margin cause s = sampleDiscarded s) ∧
    (∀ (b : Fin 64) (i : Fin 16), passes → bin = b.val → cell = i.val → ∃ row events,
      offerSample (some bin) cell margin cause s = raised events (withBin b row (sampleFolded s)) ∧
        Folded s.ccu.cfg s.now margin i (s.bin b) row ∧
        Evaluated s.ccu.cfg s.tdr.attach b (evalCode cause) (s.bin b) row events) := by
  intro passes
  refine ⟨?_, offerSample_discards cause, ?_⟩
  · unfold offerSample
    split
    · next b i _ =>
      obtain ⟨row, events, folds, -, -⟩ := foldSample_spec b i margin cause s
      rw [folds]
      simp [SameBut, raised, withBin, sampleFolded]
    · simp [SameBut]
  · rintro b i ok rfl rfl
    rw [offerSample_folds b i cause ok]
    exact foldSample_spec b i margin cause s

/-- Settles O53: a fold lies between the old margin and the sample; a frame's sample is offered and its frame released. -/
theorem foldMovesTowardTheSample : Obligations.FoldMovesTowardTheSample := by
  constructor
  · intro c cell x t kcfg held low high lowX highX m
    obtain ⟨up, down⟩ := foldMargin_between (cell := cell) x kcfg held
    have same : m = foldMargin c cell x := rfl
    rw [same]
    refine ⟨up, down, ?_⟩
    rcases Int.le_total cell.m x with le | le
    · have := up le
      omega
    · have := down le
      omega
  · intro s e rest bin cell margin h on f c offered passes id
    obtain ⟨u, met, step, frame, kinds, silent, known⟩ := dirStep_frame e.ring f s.now s
    obtain ⟨d, rfl⟩ : ∃ d, u = { s with tdr := d } := ⟨_, frame⟩
    let w : State := raised met { s with tdr := d }
    have kind : frameKind f = 4 ∨ 5 ≤ frameKind f := offered.imp (fun o => o.1) fun o => o.1
    have notStatus : frameKind f ≠ 1 := by omega
    have notReport : frameKind f ≠ 3 := by omega
    have offers : coverageStep f (dirStep e.ring f s.now s).2 w = offerSample (some bin) cell margin .sample w := by
      rcases offered with ⟨survey, one, rfl, rfl, rfl⟩ | ⟨other, rfl, rfl, g, b, found, home, rfl⟩
      · exact coverageStep_pair survey one
      · obtain ⟨touched, result⟩ := known g found
        have entry : ({ s with tdr := d } : State).entry g = (touchTerm g f s.now s).entry g := by rw [touched]
        rw [result]
        refine coverageStep_header other ?_
        change (({ s with tdr := d } : State).entry g).homeBin = some b
        rw [entry, touchTerm_entry]
        exact home
    obtain ⟨same, discards, folds⟩ := offerSample_spec bin cell margin .sample w
    obtain ⟨pending, pins, lif, rmn, tdr, csv, rfm, -, tbs, ccu, -⟩ := same
    have steps : beginFrame e s = releaseHead e (offerSample (some bin) cell margin .sample w) := by
      rw [beginFrame_plain notStatus notReport, step, finishFrame, ← offers]
      exact congrArg (releaseHead e) (if_pos on)
    have leads := exec_dispatchFrame_released h (expiryFirst_other h.head notStatus) steps (rmn rfl)
      ((congrArg Lif.injWaiting (lif rfl)).trans h.quiet)
    refine ⟨_, met, leads, ?_, rfl, kinds, silent, fun fails => ?_, fun b i ok atBin atCell => ?_⟩
    · exact ⟨pending, pins, lif, nofun, nofun, csv, rfm, nofun, tbs, ccu, nofun⟩
    · rw [discards fails]
      exact ⟨rfl, rfl⟩
    · obtain ⟨row, events, leads_, folded, evaluated⟩ := folds b i ok atBin atCell
      rw [leads_]
      have new : (withBin b row (sampleFolded w)).bin b = row := withBin_bin ..
      refine ⟨rfl, fun d other => withBin_bin_ne row (sampleFolded w) other, ?_, events, ?_, ?_⟩
      · exact new.symm ▸ folded
      · exact new.symm ▸ evaluated
      · simp [raised, withBin, sampleFolded, w]

end Sys2Proof.Machine
end

section
/-! # The deadline expiry (04_crane_link_supervision.md, R71 to R73, R76) -/

namespace Sys2Proof.Machine

open Sys2Proof.Claims

theorem withCrane_crane (k : Fin 32) (c : Crane) (s : State) : (withCrane k c s).crane k = c :=
  Vector.getElem_set_self k.isLt

theorem withCrane_crane_ne {k j : Fin 32} (c : Crane) (s : State) (other : j ≠ k) :
    (withCrane k c s).crane j = s.crane j :=
  Vector.getElem_set_ne k.isLt j.isLt fun same => other (Fin.ext same.symm)

theorem withCrane_withCrane (k : Fin 32) (c c' : Crane) (s : State) :
    withCrane k c' (withCrane k c s) = withCrane k c' s := by
  simp [withCrane]

theorem onCrane_withCrane (k : Fin 32) (c : Crane) (f : Crane → Crane) (s : State) :
    (withCrane k c s).onCrane k f = withCrane k (f c) s := by
  have reads : (withCrane k c s).onCrane k f = withCrane k (f ((withCrane k c s).crane k)) (withCrane k c s) := rfl
  rw [reads, withCrane_crane, withCrane_withCrane]

theorem craneEvent_withCrane (k : Fin 32) (kind : EventKind) (d1 d2 : Int) (c : Crane) (s : State) :
    craneEvent k kind d1 d2 (withCrane k c s) =
      raised [event .csv kind .context k.val c.tid.toNat d1 d2] (withCrane k c s) := by
  rw [craneEvent, withCrane_crane, raise_eq_raised]

/-- A context behind an expiry (R72). -/
def expiredCrane (c : Crane) : Crane :=
  match c.st with
  | .unbound => c
  | .watch => { c with good := 0 }
  | .live => { c with st := .degraded, miss := 1 }
  | .degraded =>
    if c.holdLimit ≤ min (c.miss + 1) 15 then
      { c with st := .hold, holdCause := some .misses, good := 0, ready := false, miss := min (c.miss + 1) 15 }
    else { c with miss := min (c.miss + 1) 15 }
  | .hold => { c with good := 0, ready := false }

/-- The events of an expiry (R72, R86). -/
def expiryEvents (k : Fin 32) (c : Crane) : List EventReq :=
  match c.st with
  | .live => [event .csv .craneDegraded .context k.val c.tid.toNat 1 (optFin c.bin)]
  | .degraded =>
    if c.holdLimit ≤ min (c.miss + 1) 15 then
      [event .csv .craneHold .context k.val c.tid.toNat 1 (min (c.miss + 1) 15 : Nat)]
    else []
  | _ => []

/-- The state change of an expiry, by the state of the context (R72). -/
theorem expiryEffect_eq (k : Fin 32) (c : Crane) (s : State) :
    expiryEffect k (withCrane k c s) = raised (expiryEvents k c) (withCrane k (expiredCrane c) s) := by
  unfold expiryEffect expiryEvents expiredCrane
  dsimp only
  rw [withCrane_crane]
  obtain ⟨st⟩ := c
  cases st with
  | unbound => exact (raised_nil _).symm
  | watch => exact (onCrane_withCrane ..).trans (raised_nil _).symm
  | live =>
    dsimp only
    rw [onCrane_withCrane, craneEvent_withCrane]
  | degraded =>
    simp only [satInc, onCrane_withCrane]
    split
    · next full =>
      rw [enterHold, onCrane_withCrane, withCrane_crane, craneEvent_withCrane]
      rfl
    · next short =>
      exact (raised_nil _).symm
  | hold => exact (onCrane_withCrane ..).trans (raised_nil _).symm

/-- What a penalty sample does (R73, R131 to R133): nothing where the bin or the cell is absent or coverage is off;
otherwise it is discarded or folded. -/
theorem penaltySample_spec (bin : Option (Fin 64)) (cell : Option (Fin 16)) (w : State) :
    ∃ u more, penaltySample bin cell w = raised more u ∧ u = { w with cvm := u.cvm } ∧
      (bin = none ∨ cell = none ∨ w.ccu.cfg.coverageEn = false → u = w ∧ more = []) ∧
      ∀ b i, bin = some b → cell = some i → w.ccu.cfg.coverageEn = true →
        (w.ccu.cfg.binCount ≤ b.val ∨ w.ccu.cfg.cellCount ≤ i.val → u = sampleDiscarded w ∧ more = []) ∧
        (b.val < w.ccu.cfg.binCount → i.val < w.ccu.cfg.cellCount → -64 ≤ w.ccu.cfg.penaltyMargin →
          ∃ row, u = withBin b row (sampleFolded w) ∧
            Folded w.ccu.cfg w.now w.ccu.cfg.penaltyMargin i (w.bin b) row ∧
            Evaluated w.ccu.cfg w.tdr.attach b 2 (w.bin b) row more) := by
  by_cases idle : bin = none ∨ cell = none ∨ w.ccu.cfg.coverageEn = false
  · refine ⟨w, [], ?_, rfl, fun _ => ⟨rfl, rfl⟩, ?_⟩
    · rw [raised_nil]
      unfold penaltySample
      split
      · simp only [reduceCtorEq, false_or] at idle
        rw [idle]
        rfl
      · rfl
    · rintro b i rfl rfl on
      simp [on] at idle
  · obtain ⟨b, i, rfl, rfl, on⟩ : ∃ b i, bin = some b ∧ cell = some i ∧ w.ccu.cfg.coverageEn = true := by
      cases bin <;> cases cell <;> simp_all
    have offers : penaltySample (some b) (some i) w =
        offerSample (some b.val) i.val w.ccu.cfg.penaltyMargin .penalty w :=
      if_pos on
    obtain ⟨-, discards, folds⟩ := offerSample_spec b.val i.val w.ccu.cfg.penaltyMargin .penalty w
    rw [offers]
    by_cases passes : b.val < w.ccu.cfg.binCount ∧ i.val ≠ 255 ∧ i.val < w.ccu.cfg.cellCount ∧
        w.ccu.cfg.penaltyMargin ≠ -128
    · obtain ⟨row, more, leads, folded, evaluated⟩ := folds b i passes rfl rfl
      refine ⟨_, more, leads, rfl, fun off => absurd off idle, ?_⟩
      rintro _ _ ⟨rfl⟩ ⟨rfl⟩ -
      exact ⟨fun fails => absurd fails (by omega), fun _ _ _ => ⟨row, rfl, folded, evaluated⟩⟩
    · refine ⟨sampleDiscarded w, [], (discards passes).trans (raised_nil _).symm, rfl, fun off => absurd off idle, ?_⟩
      rintro _ _ ⟨rfl⟩ ⟨rfl⟩ -
      exact ⟨fun _ => ⟨rfl, rfl⟩, fun inBins inCells loud => absurd ⟨inBins, by omega, inCells, by omega⟩ passes⟩

/-- The penalty sample of an expiry, taken in LIVE or DEGRADED alone (R73). -/
def expirySample (c : Crane) (cell : Option (Fin 16)) (s : State) : State :=
  if c.st = .live ∨ c.st = .degraded then penaltySample c.bin cell s else s

/-- What the sample of an expiry does: `penaltySample_spec` in LIVE and DEGRADED, and nothing in the other states. -/
theorem expirySample_spec (c : Crane) (cell : Option (Fin 16)) (w : State) :
    ∃ u more, expirySample c cell w = raised more u ∧ u = { w with cvm := u.cvm } ∧
      (c.st = .watch ∨ c.st = .hold ∨ c.bin = none ∨ cell = none ∨ w.ccu.cfg.coverageEn = false → u = w ∧ more = []) ∧
      ∀ b i, c.st = .live ∨ c.st = .degraded → c.bin = some b → cell = some i → w.ccu.cfg.coverageEn = true →
        (w.ccu.cfg.binCount ≤ b.val ∨ w.ccu.cfg.cellCount ≤ i.val → u = sampleDiscarded w ∧ more = []) ∧
        (b.val < w.ccu.cfg.binCount → i.val < w.ccu.cfg.cellCount → -64 ≤ w.ccu.cfg.penaltyMargin →
          ∃ row, u = withBin b row (sampleFolded w) ∧
            Folded w.ccu.cfg w.now w.ccu.cfg.penaltyMargin i (w.bin b) row ∧
            Evaluated w.ccu.cfg w.tdr.attach b 2 (w.bin b) row more) := by
  by_cases samples : c.st = .live ∨ c.st = .degraded
  · obtain ⟨u, more, leads, frame, idle, folds⟩ := penaltySample_spec c.bin cell w
    refine ⟨u, more, (if_pos samples).trans leads, frame, fun none => idle ?_, fun b i _ => folds b i⟩
    rcases none with watch | hold | absent
    · simp [watch] at samples
    · simp [hold] at samples
    · exact absent
  · exact ⟨w, [], (if_neg samples).trans (raised_nil w).symm, rfl, fun _ => ⟨rfl, rfl⟩,
      fun _ _ live => absurd live samples⟩

/-- Settles O27: the expiry of a bound context reloads its countdown, acts by its state and offers the sample. -/
theorem expiryActsByState : Obligations.ExpiryActsByState := by
  intro k s e released quiet working bound countdown due c miss tid
  have isDue : s.deadlineDue k = true := by
    simp [State.deadlineDue, released, blocked_quiet _ _ quiet, working, bound, countdown, due, State.now]
  let w : State := raised (expiryEvents k c) (withCrane k (expiredCrane c) s)
  obtain ⟨u, more, sample, frame, idle, samples⟩ := expirySample_spec c (s.entry c.dirIndex).lastCell w
  have leads : exec (.deadlineExpiry k) s = .next (raised more u) := by
    change Host.Outcome.next (stepWhen (s.deadlineDue k) (expire k) s) = _
    have expires : expire k s = expirySample c (s.entry c.dirIndex).lastCell w :=
      congrArg (fun v : State => if c.st = .live ∨ c.st = .degraded then
          penaltySample c.bin (v.entry c.dirIndex).lastCell v else v)
        (expiryEffect_eq k c s)
    rw [isDue, stepWhen_true, expires, sample, frame]
    exact congrArg Host.Outcome.next (settle_idle _ quiet)
  rw [frame] at leads
  have events (l : List EventReq) (raises : expiryEvents k c = l) :
      (raised more { w with cvm := u.cvm }).rpw.events = s.rpw.events ++ (l ++ more) := by
    rw [← raises, ← List.append_assoc]
    rfl
  have crane : (raised more { w with cvm := u.cvm }).crane k = expiredCrane c := withCrane_crane ..
  refine ⟨_, more, leads, by simp [SameBut, raised, withCrane, w], fun j other => withCrane_crane_ne _ s other,
    fun none => ?_, fun b i live bin cell on => ?_, fun watch => ?_, fun live => ?_, fun degraded short => ?_,
    fun degraded full => ?_, fun hold => ?_⟩
  · obtain ⟨same, silent⟩ := idle none
    rw [same]
    exact ⟨rfl, silent⟩
  · obtain ⟨discards, folds⟩ := samples b i live bin cell on
    refine ⟨fun fails => ?_, fun inBins inCells loud => ?_⟩
    · obtain ⟨same, silent⟩ := discards fails
      rw [same]
      exact ⟨rfl, silent⟩
    · obtain ⟨row, same, folded, evaluated⟩ := folds inBins inCells loud
      have new : (raised more { w with cvm := u.cvm }).bin b = row := by
        rw [same]
        exact withBin_bin ..
      refine ⟨by rw [same]; rfl, fun d other => ?_, new.symm ▸ folded, new.symm ▸ evaluated⟩
      rw [same]
      exact withBin_bin_ne row (sampleFolded w) other
  · have silent := (idle (.inl watch)).2
    refine ⟨by rw [crane, expiredCrane, watch], ?_⟩
    rw [events [] (by rw [expiryEvents, watch]), silent]
    exact List.append_nil _
  · exact ⟨by rw [crane, expiredCrane, live], events [_] (by rw [expiryEvents, live])⟩
  · have low : ¬c.holdLimit ≤ min (c.miss + 1) 15 := Nat.not_le.mpr short
    refine ⟨by rw [crane, expiredCrane, degraded]; exact if_neg low, events [] ?_⟩
    rw [expiryEvents, degraded]
    exact if_neg low
  · have high : c.holdLimit ≤ min (c.miss + 1) 15 := full
    refine ⟨by rw [crane, expiredCrane, degraded]; exact if_pos high, events [_] ?_⟩
    rw [expiryEvents, degraded]
    exact if_pos high
  · have silent := (idle (.inr (.inl hold))).2
    refine ⟨by rw [crane, expiredCrane, hold], ?_⟩
    rw [events [] (by rw [expiryEvents, hold]), silent]
    exact List.append_nil _

end Sys2Proof.Machine
end

section
/-! # Status frames of a LIVE crane (04_crane_link_supervision.md, R65 to R70, R80, R82) -/

namespace Sys2Proof.Machine

open Sys2Proof.Claims

theorem onCrane_eq (k : Fin 32) (f : Crane → Crane) (s : State) : s.onCrane k f = withCrane k (f (s.crane k)) s := rfl

theorem onCrane_crane (k : Fin 32) (f : Crane → Crane) (s : State) : (s.onCrane k f).crane k = f (s.crane k) :=
  withCrane_crane ..

theorem onCrane_onCrane (k : Fin 32) (f g : Crane → Crane) (s : State) :
    (s.onCrane k f).onCrane k g = s.onCrane k fun c => g (f c) := onCrane_withCrane ..

theorem onCrane_raised (k : Fin 32) (f : Crane → Crane) (l : List EventReq) (s : State) :
    (raised l s).onCrane k f = raised l (s.onCrane k f) := rfl

/-! ## An accepted frame (R67) -/

/-- An echo changes the pending commands, their count of unanswered ones and the round trip alone (R78). -/
theorem echoCrane_keeps (e : BitVec 16) (t : Nat) (c : Crane) : ∃ cmds unanswered rtt,
    echoCrane e t c = { c with cmds := cmds, unanswered := unanswered, rtt := rtt } := by
  unfold echoCrane
  split
  · exact ⟨_, _, _, rfl⟩
  · split
    · exact ⟨_, _, _, rfl⟩
    · exact ⟨_, _, _, rfl⟩

/-- The jitter effect (R80, R81): the estimate, its alarm, and the times of the frame. -/
theorem jitterEffect_keeps (k : Fin 32) (a : Nat) (ts : Word) (s : State) :
    ∃ (jitter : Crane → Nat) (alarm : Crane → Bool) (l : List EventReq),
    jitterEffect k a ts s = raised l (s.onCrane k fun c =>
      { c with jitter := jitter c, alarmRaised := alarm c, prevArrival := some a, prevSender := some ts }) := by
  unfold jitterEffect
  dsimp only
  split
  · split
    · rw [craneEvent, raise_eq_raised, onCrane_raised, onCrane_onCrane]
      exact ⟨fun c => nextJitter .., fun c => nextAlarm .., _, rfl⟩
    · rw [onCrane_onCrane]
      exact ⟨fun c => nextJitter .., fun c => nextAlarm .., [], (raised_nil _).symm⟩
  · exact ⟨Crane.jitter, Crane.alarmRaised, [], (raised_nil _).symm⟩

/-- The state effect of an accepted frame in LIVE clears the miss count (R69). -/
theorem stateEffect_live {k : Fin 32} {s : State} (live : (s.crane k).st = .live) (gap : Bool) :
    stateEffect k gap s = s.onCrane k fun c => { c with miss := 0 } := by
  unfold stateEffect
  dsimp only
  rw [live]

/-- The ESTOP effect of an accepted frame (R70). -/
theorem estopEffect_keeps (k : Fin 32) (f : Frame) (s : State) : ∃ l,
    estopEffect k f s = raised l (s.onCrane k fun c => { c with estop := frameEstop f }) := by
  unfold estopEffect
  dsimp only
  split
  · exact ⟨_, raise_eq_raised ..⟩
  · exact ⟨[], (raised_nil _).symm⟩

/-- What an accepted frame `f` at run time `t` leaves of a LIVE context `c` (R67, R69). -/
structure TakenLive (f : Frame) (a t : Nat) (c new : Crane) : Prop where
  st : new.st = .live
  miss : new.miss = 0
  lastSeq : new.lastSeq = some (frameSeq f)
  countdown : new.countdown = some (t + c.deadline)
  lost : new.lost = c.lost
  duplicate : new.duplicate = c.duplicate
  stale : new.stale = c.stale
  good : new.good = c.good
  lastPos : new.lastPos = some (BitVec.ofNat 32 (framePos f))
  prevArrival : new.prevArrival = some a
  estop : new.estop = frameEstop f

theorem acceptFrame_live {k : Fin 32} {s : State} (live : (s.crane k).st = .live) (f : Frame) (bin : Option (Fin 64))
    (a t : Nat) (gap : Bool) : ∃ l new, acceptFrame k f bin a t gap s = raised l (withCrane k new s) ∧
      TakenLive f a t (s.crane k) new := by
  unfold acceptFrame
  obtain ⟨jitter, alarm, l, leads⟩ := jitterEffect_keeps k a (frameSender f) (s.onCrane k fun c =>
    echoCrane (frameControl f) t { c with
      countdown := some (t + c.deadline), lastSeq := some (frameSeq f),
      lastPos := some (BitVec.ofNat 32 (framePos f)), bin := bin })
  obtain ⟨cmds, unanswered, rtt, echo⟩ := echoCrane_keeps (frameControl f) t { s.crane k with
    countdown := some (t + (s.crane k).deadline), lastSeq := some (frameSeq f),
    lastPos := some (BitVec.ofNat 32 (framePos f)), bin := bin }
  rw [leads, onCrane_onCrane]
  generalize timed : s.onCrane k _ = u
  have taken : (u.crane k).st = .live := by
    rw [← timed, onCrane_crane, echo]
    exact live
  rw [stateEffect_live (s := raised l u) taken, onCrane_raised]
  obtain ⟨l', alarms⟩ := estopEffect_keeps k f (raised l (u.onCrane k fun c => { c with miss := 0 }))
  rw [alarms, onCrane_raised, onCrane_onCrane, ← timed, onCrane_onCrane, raised_raised]
  refine ⟨_, _, congrArg (raised _) (onCrane_eq ..), ?_⟩
  dsimp only at echo ⊢
  rw [echo]
  exact ⟨live, rfl, rfl, rfl, rfl, rfl, rfl, rfl, rfl, rfl, rfl⟩

/-- A supervised frame of a context that has taken a sequence before (R66). -/
theorem supervise_known {k : Fin 32} {s : State} {q : BitVec 16} (seq : (s.crane k).lastSeq = some q) (f : Frame)
    (bin : Option (Fin 64)) (a t : Nat) :
    let d := (frameSeq f - q).toNat
    supervise k f bin a t s =
      if d = 0 then s.onCrane k fun c => { c with duplicate := satInc Config.max32 c.duplicate }
      else if d = 1 then acceptFrame k f bin a t false s
      else if d ≤ (s.crane k).window then
        acceptFrame k f bin a t true (s.onCrane k fun c => { c with lost := min (c.lost + (d - 1)) Config.max32 })
      else s.onCrane k fun c => { c with stale := satInc Config.max32 c.stale } := by
  unfold supervise
  dsimp only
  rw [seq]

/-- A supervised frame of a LIVE context, by its sequence (R66, R67, R69). -/
theorem supervise_live {k : Fin 32} {s : State} {q : BitVec 16} (live : (s.crane k).st = .live)
    (seq : (s.crane k).lastSeq = some q) (f : Frame) (bin : Option (Fin 64)) (a t : Nat) :
    let c := s.crane k
    let d := (frameSeq f - q).toNat
    ∃ l new, supervise k f bin a t s = raised l (withCrane k new s) ∧
      (d = 0 → new = { c with duplicate := min (c.duplicate + 1) 4294967295 } ∧ l = []) ∧
      (d = 1 ∨ 2 ≤ d ∧ d ≤ c.window →
        TakenLive f a t { c with lost := if d = 1 then c.lost else min (c.lost + (d - 1)) 4294967295 } new) ∧
      (2 ≤ d → c.window < d → new = { c with stale := min (c.stale + 1) 4294967295 } ∧ l = []) := by
  intro c d
  rw [supervise_known seq]
  by_cases repeated : d = 0
  · exact ⟨[], _, (if_pos repeated).trans (raised_nil _).symm, fun _ => ⟨rfl, rfl⟩, by omega, by omega⟩
  · rw [if_neg repeated]
    by_cases next : d = 1
    · obtain ⟨l, new, leads, taken⟩ := acceptFrame_live live f bin a t false
      refine ⟨l, new, (if_pos next).trans leads, by omega, fun _ => ?_, by omega⟩
      rw [if_pos next]
      exact taken
    · rw [if_neg next]
      by_cases gap : d ≤ c.window
      · obtain ⟨l, new, leads, taken⟩ := acceptFrame_live (s := s.onCrane k fun c =>
          { c with lost := min (c.lost + (d - 1)) Config.max32 }) (k := k)
          (by rw [onCrane_crane]; exact live) f bin a t true
        rw [onCrane_crane] at taken
        refine ⟨l, new, (if_pos gap).trans (leads.trans (congrArg (raised l) (withCrane_withCrane ..))), by omega,
          fun _ => ?_, by omega⟩
        rw [if_neg next]
        exact taken
      · exact ⟨[], _, (if_neg gap).trans (raised_nil _).symm, by omega, by omega, fun _ _ => ⟨rfl, rfl⟩⟩

/-- Settles O26: the frame's entry is touched, its crane supervised by the sequence, and the frame released. -/
theorem inOrderStatusFrameKeepsTheCraneLive : Obligations.InOrderStatusFrameKeepsTheCraneLive := by
  intro s e rest i k q h off on f c kind found bound live tid dir seq inTime d
  have early : s.expiryFirst = false := by
    have notLate : s.overdue k = false := by
      unfold State.overdue
      cases ends : (s.crane k).countdown with
      | none => exact Bool.and_false _
      | some x =>
        dsimp only
        rw [decide_eq_false (Nat.not_lt.mpr (inTime x ends) : ¬x < s.now)]
        exact Bool.and_false _
    unfold State.expiryFirst
    rw [h.head]
    change (frameKind f == 1 && s.ccu.cfg.craneEn &&
      match s.findTerm (frameTid f) with | some i => _ | none => false) = false
    rw [found]
    dsimp only
    rw [bound]
    simp [notLate]
  let w := touchTerm i f s.now s
  obtain ⟨l, new, leads, repeated, taken, stale⟩ := supervise_live (s := w) (k := k) live seq f (dirResult i w).lastBin
    e.runTime s.now
  have step : dirStep e.ring f s.now s = (w, some (dirResult i w)) := by
    unfold dirStep
    dsimp only
    rw [if_neg (findTerm_not_reserved found), found]
  have steps : beginFrame e s = releaseHead e (raised l (withCrane k new w)) := by
    have notReport : ¬frameKind f = 3 := by omega
    have supervised (left : Bool) : craneStep e.ring f e.runTime s.now left (some (dirResult i w)) w =
        raised l (withCrane k new w) := by
      have ctx : (dirResult i w).ctx = some k := by
        change (w.entry i).ctx = some k
        rw [touchTerm_entry]
        exact bound
      have its : (w.crane k).st ≠ .unbound ∧ (w.crane k).tid = frameTid f ∧
          (w.crane k).dirIndex = (dirResult i w).index :=
        ⟨fun no => CraneState.noConfusion (live.symm.trans no), tid, dir⟩
      unfold craneStep
      dsimp only
      rw [ctx]
      exact (if_pos its).trans leads
    unfold beginFrame
    dsimp only
    rw [step]
    dsimp only
    rw [if_neg (fun both => notReport both.1), if_pos ⟨kind, on⟩, supervised]
    exact finishFrame_off off
  have leads := exec_dispatchFrame_released h early steps rfl h.quiet
  have crane : (withCrane k new w).crane k = new := withCrane_crane ..
  refine ⟨_, leads, rfl, by simp [SameBut, raised, withCrane, w, touchTerm],
    fun j other => withCrane_crane_ne _ _ other,
    fun j other => touchTerm_entry_ne _ _ _ other, fun same => ?_, fun accepted => ?_, fun two beyond => ?_⟩
  · obtain ⟨counted, silent⟩ := repeated same
    rw [silent]
    exact ⟨crane.trans counted, (congrArg State.rpw (raised_nil (withCrane k new w)) :)⟩
  · have t := taken accepted
    rw [← crane] at t
    exact ⟨t.st, t.miss, t.lastSeq, t.countdown, t.lost, t.duplicate, t.stale, t.good, t.lastPos,
      t.prevArrival, t.estop⟩
  · obtain ⟨counted, silent⟩ := stale two beyond
    rw [silent]
    exact ⟨crane.trans counted, (congrArg State.rpw (raised_nil (withCrane k new w)) :)⟩

end Sys2Proof.Machine
end

section
/-! # A reefer report entry (06_reefer_monitoring.md, R106 to R113, R122, R123) -/

namespace Sys2Proof.Machine

open Sys2Proof.Claims

/-! ## The record -/

theorem onReefer_withReefer (i : Fin 2048) (r : Reefer) (f : Reefer → Reefer) (s : State) :
    (withReefer i r s).onReefer i f = withReefer i (f r) s := by
  have reads : (withReefer i r s).onReefer i f = withReefer i (f ((withReefer i r s).reefer i)) (withReefer i r s) := rfl
  rw [reads, withReefer_reefer, withReefer_withReefer]

theorem onReefer_raised (i : Fin 2048) (f : Reefer → Reefer) (l : List EventReq) (s : State) :
    (raised l s).onReefer i f = raised l (s.onReefer i f) := rfl

theorem withReefer_reefer_ne {i j : Fin 2048} (r : Reefer) (s : State) (other : j ≠ i) :
    (withReefer i r s).reefer j = s.reefer j := Vector.getElem_set_ne i.isLt j.isLt fun same => other (Fin.ext same.symm)

/-- REEFER_BACK of a MISSING record heard again at run time `t` (R113). -/
def backEvents (t : Nat) (r : Reefer) : List EventReq :=
  if r.missing then
    [event .rfm .reeferBack .tag r.tag.toNat (min ((t - r.lastReport) / 1000000) 4294967295 : Nat) (missCode r.reason)
      r.gateway.toNat]
  else []

/-- A record heard at run time `t`, its entry without an alarm (R113). -/
def heardRecord (t : Nat) (r : Reefer) : Reefer :=
  { r with
    missing := false, reason := if r.missing then none else r.reason, alarm := 0, lastReport := t
    reports := min (r.reports + 1) 4294967295 }

theorem heard_eq {f : Frame} {j : Nat} (noAlarm : entryAlarm f j = 0) (i : Fin 2048) (t : Nat) (s : State) :
    heard i f j t s =
      raised (backEvents t (s.reefer i)) (withReefer i (heardRecord t (s.reefer i)) s) := by
  generalize record : s.reefer i = r
  have silence : (min (seconds (t - r.lastReport)) Config.max32 : Int) =
      (min ((t - r.lastReport) / 1000000) 4294967295 : Nat) := (Nat.cast_min ..).symm
  have same : s = withReefer i r s := by rw [← record, withReefer_self]
  rw [same, withReefer_withReefer]
  unfold heard backEvents
  dsimp only
  rw [withReefer_reefer, noAlarm, if_neg (by simp), silence]
  by_cases missing : r.missing = true
  · rw [if_pos missing, if_pos missing, onReefer_withReefer, reeferEvent, raise_eq_raised, onReefer_raised,
      onReefer_withReefer, heardRecord, if_pos missing]
    rfl
  · have present : r.missing = false := by simpa using missing
    rw [if_neg missing, if_neg missing, onReefer_withReefer, heardRecord, if_neg missing, raised_nil, ← present]
    rfl

/-- Record `r` behind stages 4 and 5 of a report at run time `t` whose supply temperature `x` is its sample (R108 to R111). -/
def sampledRecord (p : Profile) (f : Frame) (home : Option (Fin 64)) (t clock : Nat) (r : Reefer) : Reefer :=
  let elapsed := (t - clock) / 1000000
  let counted := min elapsed p.holdCap
  let product := r.excess * counted + r.residue
  let sp := max (-400) (min 300 (entrySetpoint f 0))
  let x := entrySupply f 0
  { r with
    gateway := frameTid f, gwHomeBin := home, gwSlot := entrySlot f 0, sensorFault := false, off := false, defrost := false
    mode := some (entryMode f 0), setpoint := some sp, heldTemp := some x
    excess := (max 0 (x - (sp + p.tolHi)) + max 0 (sp - p.tolLo - x)).toNat
    doseClock := some (clock + elapsed * 1000000), dose := min (r.dose + product / 60) 16777215, residue := product % 60
    unobserved := min (r.unobserved + (elapsed - counted)) 4294967295 }

/-- An entry in service whose supply temperature is valid (R110). -/
structure InService (f : Frame) : Prop where
  on : (entryFlags f 0).testBit 0 = true
  valid : (entryFlags f 0).testBit 1 = true
  running : entryMode f 0 ≠ 0
  notDefrost : entryMode f 0 ≠ 3
  low : -500 ≤ entrySupply f 0
  high : entrySupply f 0 ≤ 600

theorem takeSample_charge {f : Frame} (h : InService f) {r : Reefer} {clock : Nat} (started : r.doseClock = some clock)
    (p : Profile) (home : Option (Fin 64)) (t : Nat) :
    takeSample p f 0 { charge p t r with gateway := frameTid f, gwHomeBin := home, gwSlot := entrySlot f 0 } =
      sampledRecord p f home t clock r := by
  have served : situation f 0 = (false, false, some (entrySupply f 0)) := by
    have on : ¬(!(entryFlags f 0).testBit 0 ∨ entryMode f 0 = 0) := 
      fun no => no.elim (by simp [h.on]) h.running
    unfold situation
    dsimp only
    rw [if_neg on, if_neg h.notDefrost]
  have sample : sampleOf f 0 = some (entrySupply f 0) := by
    rw [sampleOf, served]
    exact if_pos ⟨h.valid, h.low, h.high⟩
  have sound : faultOf f 0 = false := by
    rw [faultOf, served, sample]
    rfl
  unfold takeSample charge
  dsimp only
  rw [sample, served, sound, started]
  rfl

/-- Stages 1 to 7 on record `r` (R107): the condition, and the record heard. -/
theorem processEntry_eq {f : Frame} (h : InService f) (noAlarm : entryAlarm f 0 = 0) {i : Fin 2048} {s : State} {clock : Nat}
    (started : (s.reefer i).doseClock = some clock) (home : Option (Fin 64)) (t : Nat) :
    let p := s.profileOf i
    let r := sampledRecord p f home t clock (s.reefer i)
    processEntry i f 0 home t s = raised (conditionEvents p r ++ backEvents t r)
      (withReefer i (heardRecord t { r with cond := nextCond p r }) s) := by
  intro p r
  have sampled : s.onReefer i (fun q => takeSample p f 0
      { charge p t q with gateway := frameTid f, gwHomeBin := home, gwSlot := entrySlot f 0 }) = withReefer i r s :=
    congrArg (fun q => withReefer i q s) (takeSample_charge h started p home t)
  have sound : r.sensorFault = false := rfl
  unfold processEntry
  dsimp only
  rw [sampled, withReefer_reefer, if_neg (by simp [sound]), evalCond_eq, withReefer_reefer, withReefer_withReefer]
  rw [heard_eq noAlarm]
  have record : (raised (conditionEvents p r) (withReefer i { r with cond := nextCond p r } s)).reefer i =
      { r with cond := nextCond p r } := withReefer_reefer ..
  rw [record]
  exact (congrArg (raised _) (congrArg (raised _) (withReefer_withReefer ..))).trans (raised_raised ..)

/-- An entry of a known tag that names no profile keeps the record's (R106, R107). -/
theorem reeferEntry_known {f : Frame} {i : Fin 2048} {s : State} (tagged : entryTag f 0 ≠ 0)
    (known : s.findReefer (entryTag f 0) = some i) (unnamed : 8 ≤ entryProfile f 0) (r : Fin 16)
    (home : Option (Fin 64)) (t : Nat) :
    let w := processEntry i f 0 home t s
    reeferEntry r f home t 0 s =
      (w, if reportTriggers w.ccu.cfg.digestPeriod (s.reefer i) (w.reefer i) then some i else none) := by
  have keeps : s.onReefer i (fun q => { q with profile := (profileByte (entryProfile f 0)).getD q.profile }) = s := by
    have none : profileByte (entryProfile f 0) = .none := dif_neg (Nat.not_lt.mpr unnamed)
    rw [none]
    exact withReefer_self i s
  unfold reeferEntry
  dsimp only
  rw [if_neg tagged, known]
  dsimp only
  rw [keeps]

/-! ## The digest that an entry triggers (R122, R123) -/

/-- `u` with record `i`, which is `r`, behind a digest trigger: counted, written or owed (R123). -/
def digestTriggered (i : Fin 2048) (r : Reefer) (u : State) : State :=
  if r.pending then withReefer i { r with triggers := min (r.triggers + 1) 255 } u
  else if DigestFits u then digestWritten r 1 (withReefer i r u)
  else withReefer i { r with pending := true, triggers := 1 }
    { u with rfm := { u.rfm with pendingCount := u.rfm.pendingCount + 1 } }

theorem settle_trigger {u : State} (quiet : u.lif.injWaiting = []) (room : u.lif.injQueue.length + 2 ≤ 16)
    (l : List EventReq) (i : Fin 2048) (r : Reefer) :
    settle (trigger i (raised l (withReefer i r u))) = raised l (digestTriggered i r u) := by
  rw [trigger_raised]
  unfold digestTriggered
  by_cases owed : r.pending = true
  · have counts := trigger_counted (i := i) (s := withReefer i r u) (by rw [withReefer_reefer]; exact owed)
    rw [withReefer_reefer, withReefer_withReefer] at counts
    rw [counts, if_pos owed]
    exact settle_idle _ quiet
  · have none : r.pending = false := by simpa using owed
    rw [if_neg owed]
    by_cases fits : DigestFits u
    · rw [trigger_withReefer_written i none fits, writeDigest_eq, withReefer_reefer, if_pos fits, ← digestWritten_raised]
      exact settle_askDigest (s := raised l (withReefer i r u)) r 1 false quiet room
    · rw [trigger_withReefer_owed i none fits, if_neg fits]
      exact settle_idle _ quiet

/-- A digest trigger reaches the reefer table, the report writer and the injection queue alone. -/
theorem digestTriggered_keeps (i : Fin 2048) (r : Reefer) (u : State) :
    SameBut true false false false true false false false true u (digestTriggered i r u) := by
  unfold digestTriggered
  split
  · simp [SameBut, withReefer]
  · split <;> simp [SameBut, withReefer, digestWritten, injected, dpRaised]

theorem digestTriggered_quiet (i : Fin 2048) (r : Reefer) {u : State} (quiet : u.lif.injWaiting = []) :
    (digestTriggered i r u).lif.injWaiting = [] := by
  unfold digestTriggered
  split
  · exact quiet
  · split <;> exact quiet

/-- The reefer step of a frame with one entry whose events have room (R106). -/
theorem reeferEntries_one {e : DispatchEntry} {f : Frame} {d : Option DirResult} {t : Nat} {s u : State} {i : Fin 2048}
    {r : Reefer} {l : List EventReq} {triggers : Bool} (quiet : u.lif.injWaiting = [])
    (room : u.lif.injQueue.length + (u.rpw.events.countP fun q => q.block == .rfm) + 2 ≤ 16) (few : l.length ≤ 2)
    (entry : reeferEntry e.ring f (d.bind fun d => d.homeBin) t 0 s =
      (raised l (withReefer i r u), if triggers then some i else none)) :
    reeferEntries e f d t [0] s =
      (raised l (if triggers then digestTriggered i r u else withReefer i r u), none) := by
  let w := raised l (withReefer i r u)
  have notHeld : s.heldBehind w .rfm = false := by
    refine heldBehind_room s w .rfm quiet ?_
    have counted : w.rpw.events.countP (fun q => q.block == .rfm) =
        u.rpw.events.countP (fun q => q.block == .rfm) + l.countP (fun q => q.block == .rfm) := List.countP_append
    have bound : l.countP (fun q => q.block == .rfm) ≤ l.length := List.countP_le_length
    change u.lif.injQueue.length + _ ≤ 16
    omega
  have free : w.waits .rpw = false := (blocked_quiet w .rpw quiet).1
  have settles : settle (trigger i w) = raised l (digestTriggered i r u) := settle_trigger quiet (by omega) l i r
  have freed : (raised l (digestTriggered i r u)).waits .rpw = false :=
    (blocked_quiet _ .rpw (digestTriggered_quiet i r quiet)).1
  have record : w.reefer i = r := withReefer_reefer ..
  rw [reeferEntries, entry]
  dsimp only
  rw [if_neg (ne_true_of_eq_false notHeld)]
  cases triggers with
  | false => rfl
  | true =>
    change (if (w.reefer i).pending then reeferEntries e f d t [] (trigger i w) else if w.waits .rpw then _ else
      if (settle (trigger i w)).waits .rpw then _ else reeferEntries e f d t [] (settle (trigger i w))) = _
    rw [free, settles, freed, record]
    by_cases owed : r.pending = true
    · have counts : trigger i w = raised l (digestTriggered i r u) := by
        have counted := trigger_counted (i := i) (s := w) (by rw [record]; exact owed)
        rw [← settles, counted]
        exact (settle_idle _ (by exact quiet)).symm
      rw [if_pos owed, counts]
      rfl
    · rw [if_neg owed]
      rfl

end Sys2Proof.Machine
end

section
/-! # Dispatched frames of class OTHER and REEFER_REPORT (02, R43; 03, R49 to R51; 06, R106 to R113) -/

namespace Sys2Proof.Machine

open Sys2Proof.Claims

/-! ## The entry of an OTHER frame -/

theorem withEntry_entry (i : Fin 256) (e : Terminal) (s : State) : (withEntry i e s).entry i = e :=
  Vector.getElem_set_self i.isLt

theorem withEntry_entry_ne {i j : Fin 256} (e : Terminal) (s : State) (other : j ≠ i) :
    (withEntry i e s).entry j = s.entry j := Vector.getElem_set_ne i.isLt j.isLt fun same => other (Fin.ext same.symm)

theorem usableCell_eq (c : Cfg) (f : Frame) : usableCell c (frameCell f) = servingCell c f := by
  unfold usableCell servingCell finOf
  by_cases named : frameCell f ≠ 255 ∧ frameCell f < c.cellCount
  · rw [if_pos named]
    split
    · next inRange =>
      rw [if_pos ⟨named.1, named.2, inRange⟩]
      exact congrArg some (Fin.ext (Nat.mod_eq_of_lt inRange).symm)
    · next beyond => rw [if_neg fun all => beyond all.2.2]
  · rw [if_neg named, if_neg fun all => named ⟨all.1, all.2.1⟩]

/-- An OTHER frame moves no crane: the last bin is the home bin, where there is one (R52). -/
theorem newLastBin_other {f : Frame} (other : 5 ≤ frameKind f) (c : Cfg) (e : Terminal) :
    newLastBin c e f = e.homeBin.orElse fun _ => e.lastBin := by
  unfold newLastBin
  cases e.homeBin with
  | some b => rfl
  | none => exact if_neg fun both => by omega

/-- The entry of a terminal behind an OTHER frame at run time `t` (R51). -/
theorem touchTerm_other {f : Frame} (other : 5 ≤ frameKind f) (i : Fin 256) (t : Nat) (s : State) :
    (touchTerm i f t s).entry i = { s.entry i with
      lastSeen := t
      frames := min ((s.entry i).frames + 1) 4294967295
      lastCell := (servingCell s.ccu.cfg f).orElse fun _ => (s.entry i).lastCell
      lastMargin := servingMargin (s.entry i).lastMargin f
      lastBin := (s.entry i).homeBin.orElse fun _ => (s.entry i).lastBin } := by
  rw [touchTerm_entry, newLastBin_other other, newLastCell, usableCell_eq]
  rfl

theorem touchTerm_attach (i : Fin 256) (f : Frame) (t : Nat) (s : State) : (touchTerm i f t s).tdr.attach =
    attachMove (s.entry i).lastCell ((servingCell s.ccu.cfg f).orElse fun _ => (s.entry i).lastCell) s.tdr.attach := by
  rw [← usableCell_eq]
  rfl

/-- With coverage off a head frame of class OTHER is released behind its directory step. -/
theorem exec_dispatchFrame_plain {s v : State} {e : DispatchEntry} {rest : List DispatchEntry} {d : Option DirResult}
    (h : Dispatches e rest s) (off : s.ccu.cfg.coverageEn = false) (other : 5 ≤ frameKind (s.buffer e.buf).bytes)
    (step : dirStep e.ring (s.buffer e.buf).bytes s.now s = (v, d)) (ccu : v.ccu = s.ccu) (rmn : v.rmn = s.rmn)
    (lif : v.lif = s.lif) : exec .dispatchFrame s = .next { v with rmn := frameReleased e rest s } := by
  refine exec_dispatchFrame_released h (expiryFirst_other h.head (by omega)) ?_ rmn (by rw [lif]; exact h.quiet)
  rw [beginFrame_plain (by omega) (by omega), step]
  exact finishFrame_off (by rw [ccu]; exact off)

/-! ## The entry of a REEFER_REPORT frame -/

/-- A record's report at run time `t`, whose supply temperature is its sample (R107 to R113). -/
def reportedRecord (p : Profile) (f : Frame) (home : Option (Fin 64)) (t clock : Nat) (r : Reefer) : Reefer :=
  let q := sampledRecord p f home t clock r
  heardRecord t { q with cond := nextCond p q }

/-- The events of that report (R112, R113). -/
def reportEvents (p : Profile) (f : Frame) (home : Option (Fin 64)) (t clock : Nat) (r : Reefer) : List EventReq :=
  let q := sampledRecord p f home t clock r
  conditionEvents p q ++ backEvents t q

theorem reportEvents_length (p : Profile) (f : Frame) (home : Option (Fin 64)) (t clock : Nat) (r : Reefer) :
    (reportEvents p f home t clock r).length ≤ 2 := by
  have condition (q : Reefer) : (conditionEvents p q).length ≤ 1 := by
    unfold conditionEvents
    split
    · exact Nat.zero_le 1
    · split <;> exact le_rfl
  have back (q : Reefer) : (backEvents t q).length ≤ 1 := by
    unfold backEvents
    split
    · exact le_rfl
    · exact Nat.zero_le 1
  have one := condition (sampledRecord p f home t clock r)
  have two := back (sampledRecord p f home t clock r)
  rw [reportEvents, List.length_append]
  omega

/-- With coverage off a head frame of class REEFER_REPORT with one entry of a known tag is released behind its record's report
and the digest that it triggers. -/
theorem exec_dispatchFrame_report {s : State} {e : DispatchEntry} {rest : List DispatchEntry} {g : Fin 256} {i : Fin 2048}
    {clock : Nat} {f : Frame} (frame : (s.buffer e.buf).bytes = f) (h : Dispatches e rest s)
    (off : s.ccu.cfg.coverageEn = false) (on : s.ccu.cfg.reeferEn = true) (room : RoomForEvents .rfm 2 s)
    (kind : frameKind f = 3) (one : frameCount f = 1) (found : s.findTerm (frameTid f) = some g) (tagged : entryTag f 0 ≠ 0)
    (known : s.findReefer (entryTag f 0) = some i) (unnamed : 8 ≤ entryProfile f 0) (serves : InService f)
    (noAlarm : entryAlarm f 0 = 0) (started : (s.reefer i).doseClock = some clock) :
    let w := touchTerm g f s.now s
    let r := reportedRecord (s.profileOf i) f (s.entry g).homeBin s.now clock (s.reefer i)
    exec .dispatchFrame s = .next
      { raised (reportEvents (s.profileOf i) f (s.entry g).homeBin s.now clock (s.reefer i))
          (if reportTriggers s.ccu.cfg.digestPeriod (s.reefer i) r then digestTriggered i r w else withReefer i r w) with
        rmn := frameReleased e rest s } := by
  intro w r
  have step : dirStep e.ring f s.now s = (w, some (dirResult g w)) := by
    unfold dirStep
    dsimp only
    rw [if_neg (findTerm_not_reserved found), found]
  have home : ((some (dirResult g w)).bind fun d => d.homeBin) = (s.entry g).homeBin := by
    change (w.entry g).homeBin = _
    rw [touchTerm_entry]
  have entry : reeferEntry e.ring f ((some (dirResult g w)).bind fun d => d.homeBin) s.now 0 w =
      (raised (reportEvents (s.profileOf i) f (s.entry g).homeBin s.now clock (s.reefer i)) (withReefer i r w),
        if reportTriggers s.ccu.cfg.digestPeriod (s.reefer i) r then some i else none) := by
    have record : (raised (reportEvents (s.profileOf i) f (s.entry g).homeBin s.now clock (s.reefer i))
        (withReefer i r w)).reefer i = r := withReefer_reefer ..
    have processed := processEntry_eq (s := w) (i := i) serves noAlarm started (s.entry g).homeBin s.now
    rw [home, reeferEntry_known (s := w) (i := i) tagged known unnamed, processed]
    exact congrArg (fun q => (_, if reportTriggers s.ccu.cfg.digestPeriod (s.reefer i) q then some i else none)) record
  have entries := reeferEntries_one (u := w) h.quiet room (reportEvents_length ..) entry
  obtain ⟨v, leads⟩ : ∃ v, (if reportTriggers s.ccu.cfg.digestPeriod (s.reefer i) r then digestTriggered i r w
    else withReefer i r w) = v := ⟨_, rfl⟩
  have keeps : SameBut true false false false true false false false true w v := by
    rw [← leads]
    split
    · exact digestTriggered_keeps i r w
    · simp [SameBut, withReefer]
  have calm : v.lif.injWaiting = [] := by
    rw [← leads]
    split
    · exact digestTriggered_quiet i r h.quiet
    · exact h.quiet
  obtain ⟨-, -, -, rmn, -, -, -, -, -, ccu, -⟩ := keeps
  rw [leads] at entries ⊢
  refine exec_dispatchFrame_released h (expiryFirst_other h.head (by rw [frame]; omega)) ?_ (rmn rfl) calm
  have notStatus : ¬(frameKind f = 1 ∧ w.ccu.cfg.craneEn = true) := fun both => by omega
  have reports : frameKind f = 3 ∧ w.ccu.cfg.reeferEn = true := ⟨kind, on⟩
  have steps : reeferStep e f (some (dirResult g w)) s.now 0 w =
      finishFrame e f (some (dirResult g w))
        (raised (reportEvents (s.profileOf i) f (s.entry g).homeBin s.now clock (s.reefer i)) v) := by
    have first : (List.range 1).drop 0 = [0] := rfl
    rw [reeferStep, one, first, entries]
  unfold beginFrame
  rw [frame]
  dsimp only
  rw [step]
  dsimp only
  rw [if_neg notStatus, if_pos reports, steps]
  exact finishFrame_off (((congrArg (fun c : Ccu => c.cfg.coverageEn)) (ccu rfl)).trans off)

/-- What an entry triggers on, where its record is no longer MISSING, flagged or in alarm (R122). -/
theorem reportTriggers_eq (period : Nat) (before after : Reefer) (missing : after.missing = false)
    (sound : after.sensorFault = false) (on : after.off = false) (runs : after.defrost = false) (silent : after.alarm = 0)
    (counted : after.reports ≠ 0) : reportTriggers period before after =
      (decide (after.cond ≠ before.cond ∨ before.mode ≠ after.mode ∨ before.alarm ≠ 0 ∨
        period ≠ 0 ∧ after.reports % period = 0) || before.missing || before.sensorFault || before.off ||
          before.defrost) := by
  unfold reportTriggers
  rw [missing, sound, on, runs, silent, Bool.eq_iff_iff]
  simp only [Bool.or_eq_true, Bool.and_eq_true, bne_iff_ne, beq_iff_eq, decide_eq_true_eq, ne_eq, counted,
    not_false_eq_true, Bool.not_eq_false, and_true, eq_comm (a := before.cond)]
  tauto

/-- An OTHER frame of an unknown terminal is LEARNED into the FREE entry with the lowest index (R50). -/
theorem dirStep_learns {f : Frame} {s : State} {i : Fin 256} (other : 5 ≤ frameKind f) (nonzero : frameTid f ≠ 0)
    (notTop : frameTid f ≠ 0xFFFF) (unknown : s.findTerm (frameTid f) = none) (free : s.freeTermIndex = some i)
    (r : Fin 16) (t : Nat) : ∃ d : Option DirResult, dirStep r f t s =
      (touchTerm i f t (raised [event .tdr .terminalLearned .terminal (frameTid f).toNat 3 i.val r.val]
        (withEntry i { Terminal.reset with st := .learned, id := frameTid f, kind := .other } s)), d) := by
  have kind : kindOfFrame (frameKind f) = .other := by
    unfold kindOfFrame
    rw [if_neg (by omega), if_neg (by omega), if_neg (by omega)]
  have learns : learnTerm i r f s = raised [event .tdr .terminalLearned .terminal (frameTid f).toNat 3 i.val r.val]
      (withEntry i { Terminal.reset with st := .learned, id := frameTid f, kind := .other } s) := by
    rw [learnTerm, kind]
    exact raise_eq_raised ..
  unfold dirStep
  dsimp only
  rw [if_neg (not_or.mpr ⟨nonzero, notTop⟩), unknown, free]
  dsimp only
  rw [learns]
  exact ⟨_, rfl⟩

/-- The digest that a report triggers, and its record (R122, R123): counted, written or owed. -/
theorem digestTriggered_fields (i : Fin 2048) (r : Reefer) (u : State) (triggers : Bool) :
    let full : Bool := decide (1024 ≤ (u.rpw.dgProd - u.rpw.dgCons).toNat)
    let owed : Bool := triggers && !r.pending && full
    let written : Bool := triggers && !r.pending && !full
    let after : Reefer := { r with
      pending := r.pending || owed,
      triggers := if triggers && r.pending then min (r.triggers + 1) 255 else if owed then 1 else r.triggers }
    let v := if triggers then digestTriggered i r u else withReefer i r u
    (∀ j, j ≠ i → v.reefer j = u.reefer j) ∧ v.rfm.draining = u.rfm.draining ∧ v.rfm.cursor = u.rfm.cursor ∧
      v.rfm.pendingCount = u.rfm.pendingCount + (if owed then 1 else 0) ∧ v.reefer i = after ∧
      v.lif = (if written then digestWritten (v.reefer i) 1 u else u).lif ∧
      v.rpw = { u.rpw with dgProd := if written then u.rpw.dgProd + 1 else u.rpw.dgProd } := by
  intro full owed written after v
  cases triggers with
  | false =>
    have same : after = r := by
      cases r
      simp [after, owed]
    rw [same]
    exact ⟨fun j ne => withReefer_reefer_ne r u ne, rfl, rfl, rfl, withReefer_reefer .., rfl, rfl⟩
  | true =>
    have leads : v = digestTriggered i r u := rfl
    unfold digestTriggered at leads
    by_cases pending : r.pending = true
    · have same : after = { r with triggers := min (r.triggers + 1) 255 } := by
        cases r
        simp_all [after, owed]
      have notOwed : owed = false := by simp [owed, pending]
      have notWritten : written = false := by simp [written, pending]
      rw [if_pos pending] at leads
      rw [same, notOwed, notWritten, leads]
      exact ⟨fun j ne => withReefer_reefer_ne _ u ne, rfl, rfl, rfl, withReefer_reefer .., rfl, rfl⟩
    · have none : r.pending = false := by simpa using pending
      rw [if_neg pending] at leads
      by_cases fits : DigestFits u
      · have room : full = false := decide_eq_false (Nat.not_le.mpr fits)
        have notOwed : owed = false := by simp [owed, room]
        have same : after = r := by
          cases r
          simp_all [after]
        have writes : written = true := by simp [written, none, room]
        rw [if_pos fits] at leads
        have reads : v.reefer i = r := by
          rw [leads]
          exact withReefer_reefer ..
        rw [same, notOwed, writes, reads, leads]
        exact ⟨fun j ne => withReefer_reefer_ne r u ne, rfl, rfl, rfl, rfl, rfl, rfl⟩
      · have noRoom : full = true := decide_eq_true (Nat.not_lt.mp fits)
        have owes : owed = true := by simp [owed, none, noRoom]
        have same : after = { r with pending := true, triggers := 1 } := by
          simp [after, owes, none]
        have notWritten : written = false := by simp [written, noRoom]
        rw [if_neg fits] at leads
        rw [same, owes, notWritten, leads]
        exact ⟨fun j ne => withReefer_reefer_ne _ _ ne, rfl, rfl, rfl, withReefer_reefer .., rfl, rfl⟩

/-- Settles O25: a frame of class OTHER touches or learns its terminal's entry; a report of one entry takes its sample and
triggers its digest. -/
theorem dispatchedFrameTouchesItsEntry : Obligations.DispatchedFrameTouchesItsEntry := by
  constructor
  · intro s e rest h off f id cell other
    have plain {v : State} {d : Option DirResult} (step : dirStep e.ring f s.now s = (v, d)) (ccu : v.ccu = s.ccu)
        (rmn : v.rmn = s.rmn) (lif : v.lif = s.lif) :
        exec .dispatchFrame s = .next { v with rmn := frameReleased e rest s } :=
      exec_dispatchFrame_plain h off other step ccu rmn lif
    refine ⟨fun i found => ?known, fun i nonzero notTop unknown free lower => ?learned,
      fun nonzero notTop unknown full => ?full, fun reserved => ?reserved⟩
    case known =>
      have step : dirStep e.ring f s.now s = (touchTerm i f s.now s, some (dirResult i (touchTerm i f s.now s))) := by
        unfold dirStep
        dsimp only
        rw [if_neg (findTerm_not_reserved found), found]
      exact ⟨_, plain step rfl rfl rfl, by simp [SameBut, touchTerm], rfl,
        fun j ne => touchTerm_entry_ne f s.now s ne, touchTerm_other other i s.now s, touchTerm_attach ..⟩
    case learned =>
      obtain ⟨d, step⟩ := dirStep_learns other nonzero notTop unknown (freeTermIndex_lowest free lower) e.ring s.now
      let new : Terminal := { Terminal.reset with st := .learned, id := frameTid f, kind := .other }
      let u := raised [event .tdr .terminalLearned .terminal (frameTid f).toNat 3 i.val e.ring.val] (withEntry i new s)
      have fresh : u.entry i = new := withEntry_entry i new s
      have entry := touchTerm_other other i s.now u
      have attach := touchTerm_attach i f s.now u
      rw [fresh] at entry attach
      refine ⟨_, plain step rfl rfl rfl, by simp [SameBut, touchTerm, raised, withEntry], rfl,
        fun j ne => (touchTerm_entry_ne f s.now u ne).trans (withEntry_entry_ne new s ne), entry.trans ?_,
        attach.trans ?_, rfl⟩
      · have cell_ : (cell.orElse fun _ => none) = cell := by cases cell <;> rfl
        simp only [new, Terminal.reset]
        rw [show servingCell u.ccu.cfg f = cell from rfl, cell_]
        rfl
      · have cell_ : (cell.orElse fun _ => none) = cell := by cases cell <;> rfl
        exact congrArg (fun c => attachMove none c s.tdr.attach) cell_
    case full =>
      have step : dirStep e.ring f s.now s =
          (raised [event .tdr .directoryFull .terminal id.toNat (frameKind f) e.ring.val 0] s, none) := by
        unfold dirStep
        dsimp only
        rw [if_neg (not_or.mpr ⟨nonzero, notTop⟩), unknown, freeTermIndex_none full]
        rfl
      exact plain step rfl rfl rfl
    case reserved => exact plain (dirStep_reserved reserved) rfl rfl rfl
  · intro s e rest g i clock h off on room f tag x kind one found tagged known unnamed bit valid running notDefrost low high
      noAlarm r started now p elapsed counted product dose reports sp cond triggered full owed written after
    let q := sampledRecord p f (s.entry g).homeBin now clock r
    have cond_eq : nextCond p q = cond := nextCond_eq p q
    have record : reportedRecord p f (s.entry g).homeBin now clock r = heardRecord now { q with cond := cond } := by
      rw [← cond_eq]
      rfl
    have events : reportEvents p f (s.entry g).homeBin now clock r = conditionEvents p q ++ backEvents now q := rfl
    have triggers : reportTriggers s.ccu.cfg.digestPeriod r (heardRecord now { q with cond := cond }) = triggered := by
      refine reportTriggers_eq _ _ _ rfl rfl rfl rfl rfl ?_
      change min (r.reports + 1) 4294967295 ≠ 0
      omega
    obtain ⟨others, draining, cursor, pendingCount, reefer, lif, rpw⟩ :=
      digestTriggered_fields i (heardRecord now { q with cond := cond }) (touchTerm g f s.now s) triggered
    obtain ⟨v, v_eq⟩ : ∃ v, (if triggered then digestTriggered i (heardRecord now { q with cond := cond })
      (touchTerm g f s.now s) else withReefer i (heardRecord now { q with cond := cond }) (touchTerm g f s.now s)) = v :=
      ⟨_, rfl⟩
    have leads : exec .dispatchFrame s = .next
        { raised (conditionEvents p q ++ backEvents now q) v with rmn := frameReleased e rest s } := by
      rw [← v_eq, ← triggers, ← record, ← events]
      exact exec_dispatchFrame_report rfl h off on room kind one found tagged known unnamed
        ⟨bit, valid, running, notDefrost, low, high⟩ noAlarm started
    have keeps : SameBut true false false false true false false false true (touchTerm g f s.now s) v := by
      rw [← v_eq]
      split
      · exact digestTriggered_keeps ..
      · simp [SameBut, withReefer]
    obtain ⟨pending, pins, -, -, tdr, csv, -, cvm, tbs, ccu, -⟩ := keeps
    have condition : conditionEvents p q =
        if cond = r.cond ∨ cond = .normal then []
        else if cond = .breach then [event .rfm .reeferBreach .tag r.tag.toNat dose p.breachDose r.profile.val]
        else [event .rfm .reeferWarn .tag r.tag.toNat dose p.warnDose r.profile.val] := by
      rw [conditionEvents, cond_eq]
      rfl
    rw [v_eq] at others draining cursor pendingCount reefer lif rpw
    have reads : v.reefer i = after := reefer
    have links : v.lif = (if written then digestWritten after 1 s else s).lif := by
      rw [lif, reads]
      have touched (w : Bool) (a : Reefer) : (if w then digestWritten a 1 (touchTerm g f s.now s)
          else touchTerm g f s.now s).lif = (if w then digestWritten a 1 s else s).lif := by
        cases w <;> rfl
      exact touched written after
    refine ⟨_, leads, ⟨pending, pins, nofun, nofun, nofun, csv, nofun, cvm, tbs, ccu, nofun⟩, rfl, fun j ne => ?_, others,
      draining, cursor, pendingCount, reads, links, ?_⟩
    · exact (congrArg (fun d : Tdr => d.entries[j]) (tdr rfl)).trans (touchTerm_entry_ne f s.now s ne)
    · rw [← condition]
      change { v.rpw with events := v.rpw.events ++ (conditionEvents p q ++ backEvents now q) } = _
      rw [rpw]
      rfl

end Sys2Proof.Machine
end

section
/-! # A U-link write by what it meets (01_the_memory_path.md, R1 to R4, R8, R14, R15)

The bytes that a write covers, the windows that it misses, and the write that misses them all. -/

namespace Sys2Proof.Machine

open Sys2Proof.Claims

/-! ## Folds of which one step acts -/

theorem foldl_same {α β : Type} {f : β → α → β} {s : β} {l : List α} (same : ∀ q ∈ l, f s q = s) : l.foldl f s = s := by
  induction l with
  | nil => rfl
  | cons q l ih =>
    rw [List.foldl_cons, same q (List.mem_cons_self ..)]
    exact ih fun p hp => same p (List.mem_cons_of_mem q hp)

/-- Where only the step of `r` acts, a fold over a list that holds `r` once is that step. -/
theorem foldl_only {α β : Type} [DecidableEq α] {f : β → α → β} {s t : β} {r : α} {l : List α} (nodup : l.Nodup) (mem : r ∈ l)
    (acts : f s r = t) (before : ∀ q, q ≠ r → f s q = s) (after : ∀ q, q ≠ r → f t q = t) : l.foldl f s = t := by
  induction l with
  | nil => cases mem
  | cons q l ih =>
    rw [List.foldl_cons]
    obtain ⟨fresh, rest⟩ := List.nodup_cons.mp nodup
    by_cases here : q = r
    · rw [here, acts]
      exact foldl_same fun p hp => after p fun same => fresh (by rw [here, ← same]; exact hp)
    · rw [before q here]
      exact ih rest ((List.mem_cons.mp mem).resolve_left fun same => here same.symm)

/-! ## The bytes of a write -/

theorem bytesIn_misses {lo len : Nat} {w : List (Nat × Byte)} (misses : Misses lo len w) : bytesIn lo len w = [] := by
  rw [bytesIn, List.filterMap_eq_nil_iff]
  exact fun ab hab => if_neg (misses ab hab)

theorem inPartPage_iff (s : State) (a : Nat) : s.inPartPage a = true ↔ InPartPage s a := by
  unfold State.inPartPage InPartPage
  simp only [Bool.or_eq_true, Bool.and_eq_true, decide_eq_true_eq]
  omega

/-- The bytes that beat `bk.1`, the `bk.2`th of a burst from `addr`, writes. -/
def beatBytes (addr : Nat) (bk : Beat × Nat) : List (Nat × Byte) :=
  (List.range 16).filterMap fun j =>
    if beatStrobe bk.1 j then some (beatPlace (addr + 16 * bk.2) + j, beatByte bk.1 j) else none

theorem writtenBytes_eq (addr : Nat) (beats : List Beat) :
    writtenBytes addr beats = beats.zipIdx.flatMap (beatBytes addr) := rfl

/-- The bytes of a beat lie from its place on. -/
theorem mem_beatBytes {addr n : Nat} {b : Beat} {ab : Nat × Byte} : ab ∈ beatBytes addr (b, n) ↔
    ∃ j < 16, beatStrobe b j = true ∧ (beatPlace (addr + 16 * n) + j, beatByte b j) = ab := by
  simp only [beatBytes, List.mem_filterMap, List.mem_range, Option.ite_none_right_eq_some, Option.some.injEq]

/-! ## The windows of a ring -/

theorem windows_iff (s : State) (r : Fin 16) : s.windows r = true ↔ Active s r := by
  unfold State.windows Active RingState.claims State.working
  simp only [Bool.and_eq_true, Bool.or_eq_true, beq_iff_eq, or_assoc]

/-- A write outside the slot region of a ring is not captured for it. -/
theorem captureWrite_misses {r x : Fin 16} {w : List (Nat × Byte)} {s : State}
    (misses : Misses (s.ring r).desc.base ((s.ring r).desc.slotCount * (s.ring r).desc.slotSize) w) :
    captureWrite r x w s = s := by
  unfold captureWrite
  dsimp only
  rw [bytesIn_misses misses]
  rfl

theorem consumerBytes_misses {r x : Fin 16} {w : List (Nat × Byte)} {s : State}
    (misses : Misses (s.ring r).desc.consAddr 4 w) : consumerBytes r x w s = s :=
  if_pos (.inr (bytesIn_misses misses))

theorem passProducer_misses {r x : Fin 16} {w : List (Nat × Byte)} {s : State}
    (misses : Misses (s.ring r).desc.prodAddr 4 w) : passProducer r x w s = s :=
  if_pos (.inr (bytesIn_misses misses))

/-- The slot capture of one ring (R4, R32). -/
def capturedFor (x : Fin 16) (w : List (Nat × Byte)) (s : State) (r : Fin 16) : State :=
  if s.windows r && (s.ring r).desc.dir == .uplink then captureWrite r x w s else s

section
variable {s : State} {w : List (Nat × Byte)} {r : Fin 16} (x : Fin 16) (clear : ClearOf s w r)
include clear

theorem capturedFor_clear : capturedFor x w s r = s := by
  unfold capturedFor
  split
  · next open' =>
    exact captureWrite_misses (clear ((windows_iff s r).mp (Bool.and_eq_true .. ▸ open').1)).1
  · rfl

theorem consumerBytes_clear : consumerBytes r x w s = s := by
  by_cases active : Active s r
  · exact consumerBytes_misses (clear active).2.2
  · exact if_pos (.inl (by simpa using mt (windows_iff s r).mp active))

theorem passProducer_clear : passProducer r x w s = s := by
  by_cases active : Active s r
  · exact passProducer_misses (clear active).2.1
  · exact if_pos (.inl (by simpa using mt (windows_iff s r).mp active))

end

/-- A ring holds no byte of a write that misses its producer word. -/
theorem not_mem_holders {s : State} {w : List (Nat × Byte)} {r : Fin 16}
    (word : Active s r → Misses (s.ring r).desc.prodAddr 4 w)
    (held : s.working = true → NothingHeld s w r) : r ∉ s.holders w := by
  intro mem
  have holds : s.holdsNow r = true ∧ ¬bytesIn (s.ring r).desc.prodAddr 4 w = [] := by
    simpa [State.holders] using mem
  refine holds.2 (bytesIn_misses ?_)
  have now := holds.1
  unfold State.holdsNow State.running RingDesc.holds at now
  simp only [Bool.or_eq_true, Bool.and_eq_true, beq_iff_eq, bne_iff_ne, ne_eq] at now
  rcases now with ⟨running, claims⟩ | ⟨working, notEmpty⟩
  · exact word ⟨claims.imp_right fun c => .inl c.1, .inl running⟩
  · exact held working notEmpty

theorem holders_none {s : State} {w : List (Nat × Byte)}
    (words : ∀ r, Active s r → Misses (s.ring r).desc.prodAddr 4 w)
    (held : s.working = true → ∀ r, NothingHeld s w r) : s.holders w = [] :=
  List.eq_nil_iff_forall_not_mem.mpr fun r => not_mem_holders (words r) fun working => held working r

/-- A ring's windows and descriptor say what it is clear of. -/
theorem clearOf_congr {s t : State} {w : List (Nat × Byte)} {r : Fin 16} (ring : t.ring r = s.ring r)
    (part : t.ccu.part = s.ccu.part) : ClearOf t w r ↔ ClearOf s w r := by
  unfold ClearOf Active
  rw [ring, part]

/-! ## The beats that pass by the trackers (R14) -/

theorem rewriteRing_none {s : State} {a : Nat} (passes : ∀ r, Active s r → (s.ring r).desc.dir = .downlink →
    ¬((s.ring r).desc.base ≤ a ∧ a < (s.ring r).desc.base + (s.ring r).desc.slotCount * (s.ring r).desc.slotSize)) :
    s.rewriteRing a = none := by
  refine find?_finRange_none fun r => ?_
  by_contra found
  simp only [Bool.not_eq_false, Bool.and_eq_true, decide_eq_true_eq, regionEnd] at found
  obtain ⟨⟨rewrites, low⟩, high⟩ := found
  unfold State.rewrites State.working at rewrites
  simp only [Bool.and_eq_true, Bool.or_eq_true, beq_iff_eq] at rewrites
  obtain ⟨⟨⟨down, -⟩, enabled⟩, working⟩ := rewrites
  exact passes r ⟨.inr enabled, working⟩ down ⟨low, of_decide_eq_true high⟩

/-- Beats in no slot region that is rewritten are forwarded as they came. -/
theorem rewriteBeats_passes {x : Fin 16} {s : State} : ∀ {beats : List Beat} {a : Nat},
    (∀ n < beats.length, s.rewriteRing (beatPlace (a + 16 * n)) = none) → rewriteBeats x a beats s = (s, beats)
  | [], _, _ => rfl
  | b :: rest, a, passes => by
    have here : s.rewriteRing (beatPlace a) = none := passes 0 (Nat.zero_lt_succ _)
    have later := rewriteBeats_passes (x := x) (s := s) (beats := rest) (a := a + 16) fun n bound => by
      have there := passes (n + 1) (Nat.succ_lt_succ bound)
      rwa [show a + 16 * (n + 1) = a + 16 + 16 * n by omega] at there
    rw [rewriteBeats, here]
    dsimp only
    rw [later]

theorem rewriteBeats_noRewrite {x : Fin 16} {s : State} {addr : Word} {beats : List Beat}
    (passes : NoRewrite s addr beats) : rewriteBeats x addr.toNat beats s = (s, beats) :=
  rewriteBeats_passes fun n bound => rewriteRing_none fun r active down => passes r active down n bound

/-! ## A write that is taken -/

theorem exec_ulinkWrite {s : State} {addr : Word} {beats : List Beat} (h : Offered addr beats s) (x : Fin 16) :
    exec (.ulinkWrite x addr beats) s = .next (settle (ulinkWrite x addr beats s)) := by
  have shape : burstShape addr beats.length = true := by
    simp [burstShape, h.aligned, h.burst]
  have accepts : s.acceptsNow = true := by
    have := h.place
    simp [State.acceptsNow, h.released, Config.forwardDepth, this]
  change (if !burstShape addr beats.length then _
    else Host.Outcome.next (stepWhen s.acceptsNow (ulinkWrite x addr beats) s)) = _
  rw [if_neg (by simp [shape]), accepts, stepWhen_true]

/-- A write that writes no byte of a part page, and of no held word, is accepted whole (R1, R4). -/
theorem ulinkWrite_unheld {x : Fin 16} {addr : Word} {beats : List Beat} {s : State}
    (own : ∀ ab ∈ writtenBytes addr.toNat beats, ¬InPartPage s ab.1) (free : s.holders (writtenBytes addr.toNat beats) = [])
    (passes : NoRewrite s addr beats) :
    ulinkWrite x addr beats s = captureHost x (writtenBytes addr.toNat beats)
      (ringTreatments x (writtenBytes addr.toNat beats) [] s.lif.txnCount (forwarded (plainWrite x addr beats) s)) := by
  have notOwned : ¬((writtenBytes addr.toNat beats).any fun ab => s.inPartPage ab.1) = true := by
    simp only [List.any_eq_true, not_exists, not_and]
    exact fun ab hab owned => own ab hab ((inPartPage_iff s ab.1).mp owned)
  unfold ulinkWrite
  dsimp only
  rw [if_neg notOwned, free, List.any_nil, if_neg Bool.false_ne_true]
  unfold acceptWrite
  dsimp only
  rw [free, rewriteBeats_noRewrite passes, List.map_nil, forwardWrite, if_pos rfl]
  rfl

/-- The treatments of a write's ring windows follow one another (R4). -/
theorem ringTreatments_eq {x : Fin 16} {w : List (Nat × Byte)} {holders : List (Fin 16)} {id : Nat} {s captured consumed
    passed : State} (captures : (List.finRange 16).foldl (capturedFor x w) s = captured)
    (consumes : (List.finRange 16).foldl (fun s r => consumerBytes r x w s) captured = consumed)
    (passes : (List.finRange 16).foldl (fun s r => if holders.contains r then s else passProducer r x w s) consumed =
      passed) : ringTreatments x w holders id s = holdProducers x id holders w passed := by
  rw [← passes, ← consumes, ← captures]
  rfl

/-- A write that is clear of the windows of every ring gets no ring's treatment. -/
theorem ringTreatments_clear {x : Fin 16} {w : List (Nat × Byte)} {id : Nat} {s : State} (clear : ∀ r, ClearOf s w r) :
    ringTreatments x w [] id s = s :=
  ringTreatments_eq (foldl_same fun r _ => capturedFor_clear x (clear r))
    (foldl_same fun r _ => consumerBytes_clear x (clear r)) (foldl_same fun r _ => passProducer_clear x (clear r))

/-- A write off the rings is forwarded, and its bytes in the host pages are captured (R1, R4). -/
theorem ulinkWrite_offTheRings {x : Fin 16} {addr : Word} {beats : List Beat} {s : State}
    (own : ∀ ab ∈ writtenBytes addr.toNat beats, ¬InPartPage s ab.1)
    (passes : NoRewrite s addr beats) (clear : ∀ r, ClearOf s (writtenBytes addr.toNat beats) r)
    (held : s.working = true → ∀ r, NothingHeld s (writtenBytes addr.toNat beats) r) :
    ulinkWrite x addr beats s =
      captureHost x (writtenBytes addr.toNat beats) (forwarded (plainWrite x addr beats) s) := by
  rw [ulinkWrite_unheld own (holders_none (fun r active => (clear r active).2.1) held) passes,
    ringTreatments_clear (s := forwarded (plainWrite x addr beats) s) fun r =>
      (clearOf_congr (s := s) rfl rfl).mpr (clear r)]

/-- A write with no byte in the host pages is not captured for the part. -/
theorem captureHost_outside {x : Fin 16} {w : List (Nat × Byte)} {s : State} (outside : ∀ ab ∈ w, ¬InHostPage s ab.1) :
    captureHost x w s = s := if_pos (bytesIn_misses outside)

/-- Settles O7: the write meets nothing, so all that happens is its forwarding. -/
theorem plainWriteIsForwardedWhole : Obligations.PlainWriteIsForwardedWhole := by
  intro x addr beats s h outside passes clear held
  rw [exec_ulinkWrite h, ulinkWrite_offTheRings (fun ab hab => (outside ab hab).2) passes clear fun _ => held,
    captureHost_outside (s := forwarded (plainWrite x addr beats) s) fun ab hab => (outside ab hab).1]
  exact congrArg Host.Outcome.next (settle_idle _ h.quiet)

/-! ## A write of a part page (R15) -/

theorem beatPlace_aligned {addr n : Nat} (aligned : addr % 16 = 0) : beatPlace (addr + 16 * n) % 16 = 0 := by
  unfold beatPlace
  split
  · omega
  · split <;> omega

/-- The first byte of a part page that a write writes lies in the first beat that writes one. -/
theorem find?_inPartPage {s : State} {addr : Word} {beats : List Beat} {n : Nat} (owned : OwnedBeat s addr beats n)
    (earlier : ∀ m < n, ¬OwnedBeat s addr beats m) : ∃ j b, j < 16 ∧
      (writtenBytes addr.toNat beats).find? (fun ab => s.inPartPage ab.1) =
        some (beatPlace (addr.toNat + 16 * n) + j, b) := by
  obtain ⟨b, j, beat, inBeat, strobe, part⟩ := owned
  have bound : n < beats.zipIdx.length := by
    rw [List.length_zipIdx]
    exact (List.getElem?_eq_some_iff.mp beat).1
  have split : beats.zipIdx = beats.zipIdx.take n ++ (b, n) :: beats.zipIdx.drop (n + 1) := by
    have here : beats.zipIdx[n] = (b, n) := by
      have := (List.getElem?_eq_some_iff.mp beat).2
      simp [this]
    rw [← here, List.cons_getElem_drop_succ, List.take_append_drop]
  have before : ((beats.zipIdx.take n).flatMap (beatBytes addr.toNat)).find? (fun ab => s.inPartPage ab.1) = none := by
    rw [List.find?_eq_none]
    intro ab hab owned
    obtain ⟨⟨b', m⟩, taken, here⟩ := List.mem_flatMap.mp hab
    obtain ⟨j', inBeat', strobe', rfl⟩ := mem_beatBytes.mp here
    obtain ⟨k, place⟩ := List.mem_iff_getElem?.mp taken
    rw [List.getElem?_take] at place
    split at place
    · next below =>
      obtain ⟨at', rfl, rfl⟩ : ∃ h : k < beats.length, beats[k] = b' ∧ k = m := by simpa [List.getElem?_eq_some_iff] using place
      exact earlier k below ⟨_, j', List.getElem?_eq_getElem at', inBeat', strobe', (inPartPage_iff s _).mp owned⟩
    · cases place
  obtain ⟨ab, found⟩ : ∃ ab, (beatBytes addr.toNat (b, n)).find? (fun ab => s.inPartPage ab.1) = some ab := by
    rw [← Option.isSome_iff_exists, List.find?_isSome]
    exact ⟨_, mem_beatBytes.mpr ⟨j, inBeat, strobe, rfl⟩, (inPartPage_iff s _).mpr part⟩
  obtain ⟨j', inBeat', -, rfl⟩ := mem_beatBytes.mp (List.mem_of_find?_eq_some found)
  refine ⟨j', beatByte b j', inBeat', ?_⟩
  rw [writtenBytes_eq, split, List.flatMap_append, List.find?_append, before, Option.none_or, List.flatMap_cons,
    List.find?_append, found, Option.some_or]

/-- Settles O6: the first part-page byte lies in beat `n`, and the write is refused with that beat's address. -/
theorem partPageWriteIsRefused : Obligations.PartPageWriteIsRefused := by
  intro x addr beats s n h owned earlier
  obtain ⟨j, b, inBeat, found⟩ := find?_inPartPage owned earlier
  have some : ((writtenBytes addr.toNat beats).any fun ab => s.inPartPage ab.1) = true := by
    rw [List.any_eq_true]
    exact ⟨_, List.mem_of_find?_eq_some found, (List.find?_eq_some_iff_append.mp found).1⟩
  have place : (beatPlace (addr.toNat + 16 * n) + j) / 16 * 16 = beatPlace (addr.toNat + 16 * n) := by
    have := beatPlace_aligned (n := n) h.aligned
    omega
  have refuses : ulinkWrite x addr beats s = raised
      [event .lif .ownedAreaWrite .initiator x.val (beatPlace (addr.toNat + 16 * n)) beats.length 0]
      (s.respond x false []) := by
    unfold ulinkWrite
    dsimp only
    rw [if_pos some, refuseWrite, found]
    dsimp only
    rw [place, raise_eq_raised]
  rw [exec_ulinkWrite h, refuses]
  exact congrArg Host.Outcome.next (settle_idle _ h.quiet)

end Sys2Proof.Machine
end

section
/-! # Consumer and index words (01, R6; 02, R44, R45; 09, R166; 10, R178, R186, R188) -/

namespace Sys2Proof.Machine

open Sys2Proof.Claims

/-! ## The bytes of a word -/

theorem wordAt_drop (a : Nat) (v : Word) (k : Nat) :
    (wordAt a v).drop k = ((wordBytes v).drop k).map fun pb => (a + pb.1, pb.2) := List.map_drop.symm

theorem wordAt_take (a : Nat) (v : Word) (k : Nat) :
    (wordAt a v).take k = ((wordBytes v).take k).map fun pb => (a + pb.1, pb.2) := List.map_take.symm

/-- The bytes of a word, at their positions. -/
theorem wordBytes_eq (v : Word) : ∃ b0 b1 b2 b3 : Byte,
    wordBytes v = [(0, b0), (1, b1), (2, b2), (3, b3)] ∧ leVal [b0, b1, b2, b3] = v.toNat := by
  refine ⟨_, _, _, _, rfl, ?_⟩
  have value := leVal_leBytes 4 v.toNat
  rw [Nat.mod_eq_of_lt (show v.toNat < 256 ^ 4 from v.isLt)] at value
  exact value

theorem wordBytes_position {v : Word} {pb : Nat × Byte} (mem : pb ∈ wordBytes v) : pb.1 < 4 := by
  obtain ⟨b0, b1, b2, b3, bytes, -⟩ := wordBytes_eq v
  rw [bytes] at mem
  simp only [List.mem_cons, List.not_mem_nil, or_false] at mem
  rcases mem with rfl | rfl | rfl | rfl <;> simp

/-- Bytes that lie from `lo + off` on are found, by their offsets, in the `len` bytes from `lo`. -/
theorem bytesIn_moved {lo len off : Nat} {l : List (Nat × Byte)} (inside : ∀ pb ∈ l, off + pb.1 < len) :
    bytesIn lo len (l.map fun pb => (lo + off + pb.1, pb.2)) = l.map fun pb => (off + pb.1, pb.2) := by
  unfold bytesIn
  rw [List.filterMap_map, ← List.filterMap_eq_map]
  refine List.filterMap_congr fun pb mem => ?_
  have bound := inside pb mem
  have within : lo ≤ lo + off + pb.1 ∧ lo + off + pb.1 < lo + len := by omega
  rw [Function.comp_apply, if_pos within, Function.comp_apply, show lo + off + pb.1 - lo = off + pb.1 by omega]

/-- The bytes of a word are found at their positions. -/
theorem bytesIn_word {a : Nat} {l : List (Nat × Byte)} (inside : ∀ pb ∈ l, pb.1 < 4) :
    bytesIn a 4 (l.map fun pb => (a + pb.1, pb.2)) = l := by
  have moved := bytesIn_moved (lo := a) (len := 4) (off := 0) (l := l) (by simpa using inside)
  simpa using moved

/-- The last bytes of a word complete it (R6). -/
theorem assemble_last {v : Word} {k : Nat} {pend : List (Nat × Byte)} (bound : k < 4)
    (early : k = 0 ∨ pend = (wordBytes v).take k) : assemble 4 pend ((wordBytes v).drop k) = ([], some v.toNat) := by
  obtain ⟨b0, b1, b2, b3, bytes, value⟩ := wordBytes_eq v
  rw [← value]
  rw [bytes] at early ⊢
  interval_cases k
  · rfl
  all_goals
    obtain rfl := early.resolve_left (by decide)
    rfl

/-- The first bytes of a word alone stay pending (R6). -/
theorem assemble_first {v : Word} {k : Nat} (some : 0 < k) (bound : k < 4) :
    assemble 4 [] ((wordBytes v).take k) = ((wordBytes v).take k, none) := by
  obtain ⟨b0, b1, b2, b3, bytes, -⟩ := wordBytes_eq v
  rw [bytes]
  interval_cases k <;> rfl

/-- Where a write is the last bytes of a word, from byte `k` on, the word's address finds them. -/
theorem bytesIn_wordAt_drop (a : Nat) (v : Word) (k : Nat) : bytesIn a 4 ((wordAt a v).drop k) = (wordBytes v).drop k := by
  rw [wordAt_drop]
  exact bytesIn_word fun pb mem => wordBytes_position (List.mem_of_mem_drop mem)

theorem bytesIn_wordAt_take (a : Nat) (v : Word) (k : Nat) : bytesIn a 4 ((wordAt a v).take k) = (wordBytes v).take k := by
  rw [wordAt_take]
  exact bytesIn_word fun pb mem => wordBytes_position (List.mem_of_mem_take mem)

theorem wordBytes_drop_ne_nil {v : Word} {k : Nat} (bound : k < 4) : (wordBytes v).drop k ≠ [] := by
  obtain ⟨b0, b1, b2, b3, bytes, -⟩ := wordBytes_eq v
  rw [bytes, Ne, List.drop_eq_nil_iff]
  simpa using bound

theorem wordBytes_take_ne_nil {v : Word} {k : Nat} (some : 0 < k) : (wordBytes v).take k ≠ [] := by
  obtain ⟨b0, b1, b2, b3, bytes, -⟩ := wordBytes_eq v
  rw [bytes, Ne, List.take_eq_nil_iff]
  simpa using some.ne'

/-! ## The consumer word of a ring -/

/-- A write that is clear of all windows but the consumer word of ring `r`, which it changes to `t` (R4, R6). -/
theorem ringTreatments_consumer {r x : Fin 16} {w : List (Nat × Byte)} {id : Nat} {s t : State}
    (part : t.ccu.part = s.ccu.part) (others : ∀ q, q ≠ r → t.ring q = s.ring q) (desc : (t.ring r).desc = (s.ring r).desc)
    (clear : ∀ q, q ≠ r → ClearOf s w q)
    (region : Misses (s.ring r).desc.base ((s.ring r).desc.slotCount * (s.ring r).desc.slotSize) w)
    (producer : Misses (s.ring r).desc.prodAddr 4 w) (acts : consumerBytes r x w s = t) :
    ringTreatments x w [] id s = t := by
  have clear' (q : Fin 16) (other : q ≠ r) : ClearOf t w q := (clearOf_congr (others q other) part).mpr (clear q other)
  have captures : (List.finRange 16).foldl (capturedFor x w) s = s := foldl_same fun q _ => by
    by_cases here : q = r
    · rw [here]
      unfold capturedFor
      split
      · exact captureWrite_misses region
      · rfl
    · exact capturedFor_clear x (clear q here)
  have consumes : (List.finRange 16).foldl (fun s r => consumerBytes r x w s) s = t :=
    foldl_only (List.nodup_finRange 16) (List.mem_finRange r) acts (fun q other => consumerBytes_clear x (clear q other))
      fun q other => consumerBytes_clear x (clear' q other)
  refine ringTreatments_eq captures consumes (passed := t) (foldl_same fun q _ => ?_)
  by_cases here : q = r
  · rw [here]
    exact passProducer_misses (by rw [desc]; exact producer)
  · exact passProducer_clear x (clear' q here)

/-- `s` with the pending bytes `a` of ring `r`'s consumer word. -/
def consumerPending (r : Fin 16) (a : Assembly) (s : State) : State :=
  { s with lif := { s.lif with consShadow := s.lif.consShadow.set r a } }

/-- The bytes of an open window's consumer word are assembled, and a value that they complete is handed on (R6). -/
theorem consumerBytes_assembles {r x : Fin 16} {w bytes rest : List (Nat × Byte)} {value : Option Nat} {s : State}
    (active : Active s r) (written : bytesIn (s.ring r).desc.consAddr 4 w = bytes) (some : bytes ≠ [])
    (assembles : assemble 4 s.lif.consShadow[r] bytes = (rest, value)) :
    consumerBytes r x w s = match (generalizing := false) value with
      | .some v => consumerValue r x (BitVec.ofNat 32 v) (consumerPending r rest s)
      | none => consumerPending r rest s := by
  have opens : ¬(!s.windows r ∨ bytesIn (s.ring r).desc.consAddr 4 w = []) := by
    rw [(windows_iff s r).mpr active, written]
    simp [some]
  unfold consumerBytes
  dsimp only
  rw [if_neg opens, written, assembles]
  cases value <;> rfl

/-- A consumer value of a ring that is ENABLED or DISABLING is tested (R44, R45). -/
theorem consumerValue_tested {r x : Fin 16} {v : Word} {s : State}
    (state : (s.ring r).state = .enabled ∨ (s.ring r).state = .disabling) :
    let g := { s.ring r with valueFrom := some x }
    let occ := (g.prod - v).toNat
    consumerValue r x v s =
      if occ > g.desc.slotCount then raised [event .rmn .indexInvalid .ring r.val v.toNat 0 0] (withRing r g s)
      else raised (markEvent r g occ) (withRing r { g with cons := v, above := aboveAfter g occ } s) := by
  intro g occ
  let u := withRing r g s
  have ring : u.ring r = g := withRing_ring ..
  have tested : consumerValue r x v s = if occ > g.desc.slotCount then u.raise .rmn .indexInvalid .ring r.val v.toNat 0 0
      else evalMarks r (u.onRing r fun g => { g with cons := v }) := by
    change (match (u.ring r).state with
      | .enabling => u.onRing r fun g => { g with keptC := some v }
      | .enabled | .disabling =>
        if ((u.ring r).prod - v).toNat > (u.ring r).desc.slotCount then u.raise .rmn .indexInvalid .ring r.val v.toNat 0 0
        else evalMarks r (u.onRing r fun g => { g with cons := v })
      | .disabled | .rejected => u) = _
    rw [ring]
    rcases state with enabled | disabling
    · rw [show g.state = .enabled from enabled]
    · rw [show g.state = .disabling from disabling]
  rw [tested]
  by_cases beyond : occ > g.desc.slotCount
  · rw [if_pos beyond, if_pos beyond]
    exact raise_eq_raised ..
  · have takes : u.onRing r (fun g => { g with cons := v }) = withRing r { g with cons := v } s := by
      have reads : u.onRing r (fun g => { g with cons := v }) = withRing r { u.ring r with cons := v } u := rfl
      rw [reads, ring, withRing_withRing]
    rw [if_neg beyond, if_neg beyond, takes, evalMarks_eq, withRing_ring, withRing_withRing]
    rfl

/-- A write of a consumer word's bytes, of an open window, meets nothing else (R4, R6, R44). -/
structure ConsumerWrite (r : Fin 16) (addr : Word) (beats : List Beat) (s : State) : Prop where
  offered : Offered addr beats s
  active : Active s r
  outside : OutsideArea s (writtenBytes addr.toNat beats)
  passes : NoRewrite s addr beats
  clear : ∀ q, q ≠ r → ClearOf s (writtenBytes addr.toNat beats) q
  held : ∀ q, NothingHeld s (writtenBytes addr.toNat beats) q
  region : Misses (s.ring r).desc.base ((s.ring r).desc.slotCount * (s.ring r).desc.slotSize) (writtenBytes addr.toNat beats)
  producer : Misses (s.ring r).desc.prodAddr 4 (writtenBytes addr.toNat beats)

/-- What such a write comes to, `t` being what its consumer bytes make of the state. -/
theorem ConsumerWrite.leads {r x : Fin 16} {addr : Word} {beats : List Beat} {s t : State} (h : ConsumerWrite r addr beats s)
    (pins : t.pins = s.pins) (part : t.ccu.part = s.ccu.part) (waits : t.lif.injWaiting = [])
    (others : ∀ q, q ≠ r → t.ring q = s.ring q) (desc : (t.ring r).desc = (s.ring r).desc)
    (acts : consumerBytes r x (writtenBytes addr.toNat beats) (forwarded (plainWrite x addr beats) s) = t) :
    exec (.ulinkWrite x addr beats) s = .next t := by
  have free : s.holders (writtenBytes addr.toNat beats) = [] := holders_none (fun q active => by
    by_cases here : q = r
    · rw [here]
      exact h.producer
    · exact (h.clear q here active).2.1) fun _ => h.held
  have treats := ringTreatments_consumer (s := forwarded (plainWrite x addr beats) s) (id := s.lif.txnCount) part others desc
    (fun q other => (clearOf_congr (s := s) rfl rfl).mpr (h.clear q other)) h.region h.producer acts
  have area : t.areaBase = s.areaBase := by rw [State.areaBase, pins, State.areaBase]
  rw [exec_ulinkWrite h.offered, ulinkWrite_unheld (fun ab hab => (h.outside ab hab).2) free h.passes, treats,
    captureHost_outside fun ab hab => by rw [InHostPage, area]; exact (h.outside ab hab).1, settle_idle t waits]

/-! ## The words of the index page -/

/-- `s` with the pending host-page bytes `h`. -/
def hostPending (h : Assembly) (s : State) : State := { s with lif := { s.lif with hostShadow := h } }

/-- The last bytes of a host-page word, the bytes before them being all that is pending, complete it (R6). -/
theorem assembleHost_last {start n : Nat} {v : Word} {s : State} (bound : n < 4)
    (pending : s.lif.hostShadow = (wordAt start v).take n) :
    assembleHost start 4 ((wordAt start v).drop n) s = (hostPending [] s, some v.toNat) := by
  have early : bytesIn start 4 s.lif.hostShadow = (wordBytes v).take n := by rw [pending, bytesIn_wordAt_take]
  have none : s.lif.hostShadow.filter (fun ob => decide (ob.1 < start) || decide (start + 4 ≤ ob.1)) = [] := by
    rw [List.filter_eq_nil_iff]
    intro ob mem
    rw [pending, wordAt_take, List.mem_map] at mem
    obtain ⟨pb, mem, rfl⟩ := mem
    have := wordBytes_position (List.mem_of_mem_take mem)
    simp
    omega
  unfold assembleHost
  dsimp only
  rw [early, bytesIn_wordAt_drop, assemble_last bound (.inr rfl), none]
  rfl

/-- Bytes at and beyond offset 0x400 reach no field of the configuration block. -/
theorem captureConfig_beyond {w : List (Nat × Byte)} {s : State} (beyond : ∀ ob ∈ w, 0x400 ≤ ob.1) :
    captureConfig w s = s := by
  have none : w.filter (fun ob => decide (ob.1 < 0x400)) = [] := by
    rw [List.filter_eq_nil_iff]
    exact fun ob mem => by simpa using beyond ob mem
  unfold captureConfig
  rw [none]
  rfl

/-- Bytes outside the command ring reach no record of it. -/
theorem captureCommands_outside {w : List (Nat × Byte)} {s : State} (misses : Misses 0x1000 0x4000 w) :
    captureCommands w s = s := by
  unfold captureCommands
  rw [bytesIn_misses misses]
  rfl

/-- The index word `k` of a write (R166). -/
def captureIndex (w : List (Nat × Byte)) (s : State) (k : Fin 3) : State :=
  let start := 0x5000 + 4 * k.val
  if bytesIn start 4 w = [] then s
  else
    let res := assembleHost start 4 w s
    match res.2 with
    | some v => indexValue k (BitVec.ofNat 32 v) res.1
    | none => res.1

theorem captureIndices_eq (w : List (Nat × Byte)) (s : State) :
    captureIndices w s = (List.finRange 3).foldl (captureIndex w) s := rfl

/-- Bytes below the index page reach no index word. -/
theorem captureIndices_below {w : List (Nat × Byte)} {s : State} (below : ∀ ob ∈ w, ob.1 < 0x5000) :
    captureIndices w s = s := by
  rw [captureIndices_eq]
  exact foldl_same fun k _ => if_pos (bytesIn_misses fun ob mem => by have := below ob mem; omega)

/-- The last bytes of an index word, the bytes before them being all that is pending, hand its value on (R166). -/
theorem captureHost_index {k : Fin 3} {x : Fin 16} {v : Word} {n : Nat} {s : State} (bound : n < 4)
    (pending : s.lif.hostShadow = (wordAt (0x5000 + 4 * k.val) v).take n) :
    captureHost x ((wordAt (s.areaBase + 0x5000 + 4 * k.val) v).drop n) s =
      indexValue k v (hostPending [] (caught x s)) := by
  let w := (wordAt (0x5000 + 4 * k.val) v).drop n
  have place (ob : Nat × Byte) (mem : ob ∈ w) : ∃ p < 4, ob.1 = 0x5000 + 4 * k.val + p := by
    rw [show w = _ from wordAt_drop ..] at mem
    obtain ⟨pb, dropped, rfl⟩ := List.mem_map.mp mem
    exact ⟨pb.1, wordBytes_position (List.mem_of_mem_drop dropped), rfl⟩
  have inArea : bytesIn s.areaBase 0x6000 ((wordAt (s.areaBase + 0x5000 + 4 * k.val) v).drop n) = w := by
    rw [wordAt_drop, Nat.add_assoc]
    refine (bytesIn_moved fun pb mem => ?_).trans (wordAt_drop ..).symm
    have := wordBytes_position (List.mem_of_mem_drop mem)
    omega
  have some : w ≠ [] := by
    intro none
    have := (wordAt_drop (0x5000 + 4 * k.val) v n).symm.trans none
    exact wordBytes_drop_ne_nil bound (List.map_eq_nil_iff.mp this)
  have word : bytesIn (0x5000 + 4 * k.val) 4 w = (wordBytes v).drop n := bytesIn_wordAt_drop ..
  have takes : captureIndex w (caught x s) k = indexValue k v (hostPending [] (caught x s)) := by
    unfold captureIndex
    dsimp only
    rw [word, if_neg (wordBytes_drop_ne_nil bound), assembleHost_last (s := caught x s) bound pending]
    dsimp only
    rw [BitVec.ofNat_toNat, BitVec.setWidth_eq]
  have others (u : State) (q : Fin 3) (other : q ≠ k) : captureIndex w u q = u := by
    refine if_pos (bytesIn_misses fun ob mem => ?_)
    obtain ⟨p, small, place⟩ := place ob mem
    have : q.val ≠ k.val := fun same => other (Fin.ext same)
    omega
  have config : captureConfig w (caught x s) = caught x s := captureConfig_beyond fun ob mem => by
    obtain ⟨p, -, place⟩ := place ob mem
    omega
  have commands : captureCommands w (caught x s) = caught x s := captureCommands_outside fun ob mem => by
    obtain ⟨p, -, place⟩ := place ob mem
    omega
  unfold captureHost
  dsimp only
  rw [inArea, if_neg some]
  change captureIndices w (captureCommands w (captureConfig w (caught x s))) = _
  rw [config, commands, captureIndices_eq]
  exact foldl_only (List.nodup_finRange 3) (List.mem_finRange k) takes (others _) (others _)

/-- An advance of the digest consumer, from RUNNING on, starts the drain, or keeps its start while SUSPENDED (R124, R188). -/
theorem digestAdvance_eq {s : State} (notDormant : s.ccu.part ≠ .dormant) (notInit : s.ccu.part ≠ .initialising) :
    digestAdvance s = { s with rfm :=
      if !s.rfm.draining && decide (0 < s.rfm.pendingCount) then
        if s.ccu.part = .suspended then { s.rfm with startKept := true } else { s.rfm with draining := true }
      else s.rfm } := by
  have working : s.working = true ↔ s.ccu.part ≠ .suspended := by
    unfold State.working
    cases part : s.ccu.part <;> simp_all
  have owed : (!s.rfm.draining && decide (0 < s.rfm.pendingCount)) = true ↔
      (!s.rfm.draining) = true ∧ s.rfm.pendingCount > 0 := by simp
  unfold digestAdvance startDrain
  by_cases suspended : s.ccu.part = .suspended
  · rw [if_neg fun works => working.mp works suspended, if_pos suspended]
    by_cases starts : (!s.rfm.draining && decide (0 < s.rfm.pendingCount)) = true
    · rw [if_pos starts, if_pos ⟨suspended, owed.mp starts⟩]
      rfl
    · rw [if_neg starts, if_neg fun all => starts (owed.mpr all.2)]
  · rw [if_pos (working.mpr suspended), if_neg suspended]
    by_cases starts : (!s.rfm.draining && decide (0 < s.rfm.pendingCount)) = true
    · rw [if_pos starts, if_pos (owed.mp starts)]
      rfl
    · rw [if_neg starts, if_neg (mt owed.mpr starts)]

/-- Settles O11: the bytes of a consumer or an index word are assembled, and a value that they complete is tested. -/
theorem consumerValueIsTested : Obligations.ConsumerValueIsTested := by
  constructor
  · intro r x addr beats s v k offered bound active notEnabling outside passes clear held region producer g occ kept
    have h : ConsumerWrite r addr beats s := ⟨offered, active, outside, passes, clear, held, region, producer⟩
    have state : (s.ring r).state = .enabled ∨ (s.ring r).state = .disabling := active.1.resolve_left notEnabling
    refine ⟨fun written early => ?_, fun some written none => ?_⟩
    · have bytes : bytesIn (s.ring r).desc.consAddr 4 (writtenBytes addr.toNat beats) = (wordBytes v).drop k := by
        rw [written, bytesIn_wordAt_drop]
      have acts := consumerBytes_assembles (x := x) (s := forwarded (plainWrite x addr beats) s) active bytes
        (wordBytes_drop_ne_nil bound) (assemble_last bound early)
      dsimp only at acts
      rw [BitVec.ofNat_toNat, BitVec.setWidth_eq,
        consumerValue_tested (s := consumerPending r [] (forwarded (plainWrite x addr beats) s)) state] at acts
      split
      · next beyond =>
        refine h.leads rfl rfl offered.quiet (fun q other => withRing_ring_ne g (kept []) other) ?_
          (acts.trans (if_pos beyond))
        exact (congrArg Ring.desc (withRing_ring r g (kept [])) :)
      · next inRange =>
        refine h.leads rfl rfl offered.quiet (fun q other => withRing_ring_ne _ (kept []) other) ?_
          (acts.trans (if_neg inRange))
        exact (congrArg Ring.desc (withRing_ring r _ (kept [])) :)
    · have bytes : bytesIn (s.ring r).desc.consAddr 4 (writtenBytes addr.toNat beats) = (wordBytes v).take k := by
        rw [written, bytesIn_wordAt_take]
      have assembles : assemble 4 (forwarded (plainWrite x addr beats) s).lif.consShadow[r] ((wordBytes v).take k) =
          ((wordBytes v).take k, .none) := by
        change assemble 4 s.lif.consShadow[r] _ = _
        rw [none]
        exact assemble_first some bound
      exact h.leads rfl rfl offered.quiet (fun _ _ => rfl) rfl
        (consumerBytes_assembles (x := x) (s := forwarded (plainWrite x addr beats) s) active bytes
          (wordBytes_take_ne_nil some) assembles)
  · intro k x addr beats s v n offered bound pending off written notDormant notInit f u q
    have own : ∀ ab ∈ writtenBytes addr.toNat beats, ¬InPartPage s ab.1 := by
      rw [written, wordAt_drop]
      intro ab mem
      obtain ⟨pb, dropped, rfl⟩ := List.mem_map.mp mem
      have := wordBytes_position (List.mem_of_mem_drop dropped)
      unfold InPartPage
      dsimp only
      omega
    have hands : indexValue k v u = handIndex k v u := by
      unfold indexValue
      change (match s.ccu.part with
        | .dormant => u
        | .initialising => u.onCcu fun c => { c with initKept := c.initKept.set k (some v) }
        | .running | .suspending | .suspended => handIndex k v u) = _
      cases part : s.ccu.part with
      | dormant => exact absurd part notDormant
      | initialising => exact absurd part notInit
      | running => rfl
      | suspending => rfl
      | suspended => rfl
    have leads {t : State} (waits : t.lif.injWaiting = []) (value : handIndex k v u = t) :
        exec (.ulinkWrite x addr beats) s = .next t := by
      have captures : captureHost x ((wordAt (s.areaBase + 0x5000 + 4 * k.val) v).drop n)
          (forwarded (plainWrite x addr beats) s) = t :=
        (captureHost_index (s := forwarded (plainWrite x addr beats) s) bound pending).trans (hands.trans value)
      rw [exec_ulinkWrite offered, ulinkWrite_offTheRings own off.passes off.windows fun _ => off.held, written, captures,
        settle_idle t waits]
    have accepts : (v - q.done).toNat ≤ 256 ∧ (u.inProgress → v ≠ q.done) ↔
        (v - q.done).toNat ≤ 256 ∧ (q.exec = .idle ∨ v ≠ q.done) := by
      have progress : u.inProgress = true ↔ q.exec ≠ .idle := bne_iff_ne
      rw [progress, not_imp_comm, ← or_iff_not_imp_right]
    refine ⟨?_, ?_, ?_, ?_, ?_, ?_⟩
    · rintro rfl valid
      exact leads offered.quiet (if_pos (accepts.mpr valid))
    · rintro rfl invalid
      exact leads offered.quiet ((if_neg (mt accepts.mp invalid)).trans (raise_eq_raised ..))
    · rintro rfl valid
      exact leads offered.quiet (if_neg (Nat.not_lt.mpr valid))
    · rintro rfl invalid
      exact leads offered.quiet ((if_pos invalid).trans (raise_eq_raised ..))
    · rintro rfl invalid
      exact leads offered.quiet ((if_pos invalid).trans (raise_eq_raised ..))
    · rintro rfl valid starts
      refine leads offered.quiet ((if_neg (Nat.not_lt.mpr valid)).trans ?_)
      let w : State := { u with rpw := { q with dgCons := v } }
      by_cases advances : 1 ≤ (v - q.dgCons).toNat ∧ (v - q.dgCons).toNat ≤ (q.dgProd - q.dgCons).toNat
      · have starts_eq : starts = (!s.rfm.draining && decide (0 < s.rfm.pendingCount)) := by
          rw [show starts = (decide _ && !s.rfm.draining && decide _) from rfl, decide_eq_true advances, Bool.true_and]
        rw [starts_eq]
        exact (if_pos advances).trans (digestAdvance_eq (s := w) notDormant notInit)
      · have starts_eq : starts = false := by
          rw [show starts = (decide _ && !s.rfm.draining && decide _) from rfl, decide_eq_false advances,
            Bool.false_and, Bool.false_and]
        rw [starts_eq]
        exact if_neg advances

end Sys2Proof.Machine
end

section
/-! # Capture of a producer's write (02_watched_rings_and_frame_capture.md, R31 to R33) -/

namespace Sys2Proof.Machine

open Sys2Proof.Claims

/-! ## Bytes in a range -/

/-- Bytes that all lie in a range are found there by their offsets. -/
theorem bytesIn_inside {lo len : Nat} {w : List (Nat × Byte)} (inside : ∀ ab ∈ w, lo ≤ ab.1 ∧ ab.1 < lo + len) :
    bytesIn lo len w = w.map fun ab => (ab.1 - lo, ab.2) := by
  unfold bytesIn
  rw [← List.filterMap_eq_map]
  exact List.filterMap_congr fun ab mem => if_pos (inside ab mem)

/-- A byte is found at its offset. -/
theorem lookup_sub {lo o : Nat} {w : List (Nat × Byte)} (above : ∀ ab ∈ w, lo ≤ ab.1) :
    (w.map fun ab => (ab.1 - lo, ab.2)).lookup o = w.lookup (lo + o) := by
  induction w with
  | nil => rfl
  | cons ab w ih =>
    have low := above ab (List.mem_cons_self ..)
    have rest := ih fun q mem => above q (List.mem_cons_of_mem ab mem)
    rw [List.map_cons, List.lookup_cons, List.lookup_cons, rest]
    have same : (o == ab.1 - lo) = (lo + o == ab.1) := by
      rw [Bool.eq_iff_iff, beq_iff_eq, beq_iff_eq]
      omega
    rw [same]

/-- A burst writes no address twice. -/
theorem writtenBytes_unique {addr : Word} {beats : List Beat} (burst : beats.length ≤ 16) {p q : Nat × Byte}
    (hp : p ∈ writtenBytes addr.toNat beats) (hq : q ∈ writtenBytes addr.toNat beats) (same : p.1 = q.1) : p = q := by
  rw [writtenBytes_eq] at hp hq
  obtain ⟨⟨b, n⟩, beat, hp⟩ := List.mem_flatMap.mp hp
  obtain ⟨⟨c, m⟩, beat', hq⟩ := List.mem_flatMap.mp hq
  obtain ⟨j, inBeat, -, rfl⟩ := mem_beatBytes.mp hp
  obtain ⟨i, inBeat', -, rfl⟩ := mem_beatBytes.mp hq
  have first := List.mem_zipIdx_iff_getElem?.mp beat
  have second := List.mem_zipIdx_iff_getElem?.mp beat'
  have n_lt : n < 16 := Nat.lt_of_lt_of_le (List.getElem?_eq_some_iff.mp first).1 burst
  have m_lt : m < 16 := Nat.lt_of_lt_of_le (List.getElem?_eq_some_iff.mp second).1 burst
  have places : n = m ∧ j = i := by
    have low := addr.isLt
    dsimp only at same
    unfold beatPlace at same
    split_ifs at same <;> omega
  obtain ⟨rfl, rfl⟩ := places
  obtain rfl : b = c := by simpa [first] using second
  rfl

/-! ## A buffer's bytes (R33) -/

/-- Where no position is written twice with different bytes, a buffer reads what is written there, or what it held. -/
theorem storeBytes_get {w : List (Nat × Byte)} (v : Vector Byte 256) (o : Fin 256)
    (unique : ∀ p ∈ w, ∀ q ∈ w, p.1 = q.1 → p.2 = q.2) : (storeBytes w v)[o] = (w.lookup o.val).getD v[o] := by
  induction w generalizing v with
  | nil => rfl
  | cons ab w ih =>
    have rest := ih (v.setIfInBounds ab.1 ab.2) fun p hp q hq =>
      unique p (List.mem_cons_of_mem ab hp) q (List.mem_cons_of_mem ab hq)
    have stores : storeBytes (ab :: w) v = storeBytes w (v.setIfInBounds ab.1 ab.2) := rfl
    rw [stores, rest, List.lookup_cons]
    by_cases here : o.val = ab.1
    · have hit : (o.val == ab.1) = true := beq_iff_eq.mpr here
      rw [hit]
      have stored : (v.setIfInBounds ab.1 ab.2)[o] = ab.2 := by
        have bound : ab.1 < 256 := here ▸ o.isLt
        simp [here]
      rw [stored]
      cases found : w.lookup o.val with
      | none => rfl
      | some c =>
        obtain ⟨l, l', rfl, -⟩ := List.lookup_eq_some_iff.mp found
        exact unique (o.val, c) (by simp) ab (List.mem_cons_self ..) here
    · have miss : (o.val == ab.1) = false := beq_eq_false_iff_ne.mpr here
      rw [miss]
      have kept : (v.setIfInBounds ab.1 ab.2)[o] = v[o] := by
        simp [Ne.symm here]
      rw [kept]

/-! ## A slot's first write (R32, R33) -/

/-- `s` with buffer `b` FILLING for slot `sl` of ring `r` at index `i`, with the bytes `bytes`. -/
def fillingFrom (r : Fin 16) (sl : Nat) (i : Word) (b : Fin 64) (bytes : Vector Byte 256) (s : State) : State :=
  withRing r { s.ring r with slotMap := mapPut sl (.filling b i) (s.ring r).slotMap }
    { s with rmn := { s.rmn with buffers := s.rmn.buffers.set b { st := .filling r sl i, bytes := bytes } } }

/-- The producer's write into a slot that it may fill, and that holds no record, takes the lowest FREE buffer (R33). -/
theorem slotWrite_takes {r x : Fin 16} {sl : Nat} {b : Fin 64} {part : List (Nat × Byte)} {s : State}
    (enabled : (s.ring r).state = .enabled) (producer : Produces r x s)
    (free : (BitVec.ofNat 32 sl - (s.ring r).prod).toNat % (s.ring r).desc.slotCount <
      (s.ring r).desc.slotCount - ((s.ring r).prod - (s.ring r).cons).toNat)
    (none : mapGet (s.ring r).slotMap sl = .none) (lowest : s.freeBufferIndex = some b) :
    slotWrite r x sl part s =
      fillingFrom r sl (indexOf (s.ring r) sl) b (storeBytes part (Vector.replicate 256 0)) s := by
  have its : (s.ring r).desc.producer x = true := by
    simpa [RingDesc.producer, Produces] using producer
  have unfilled : freeSlotBuffer r sl s = s := freeSlotBuffer_none (by rw [none]; rfl)
  have notDisabling : ¬(s.ring r).state = .disabling := by
    rw [enabled]
    exact nofun
  have starts : startCapture r sl (indexOf (s.ring r) sl) part s =
      fillingFrom r sl (indexOf (s.ring r) sl) b (storeBytes part (Vector.replicate 256 0)) s := by
    unfold startCapture
    rw [unfilled, if_neg notDisabling, lowest]
    rfl
  have mayFill : ¬(s.ring r).desc.slotCount - occupancy (s.ring r) ≤
      (BitVec.ofNat 32 sl - (s.ring r).prod).toNat % (s.ring r).desc.slotCount := Nat.not_le.mpr free
  unfold slotWrite
  dsimp only
  rw [if_pos its, if_neg mayFill, ← starts, captureAt, none]
  rfl

/-- The bytes of a write into the first 256 bytes of slot `sl`, by their offsets in the slot. -/
def slotBytes (d : RingDesc) (sl : Nat) (w : List (Nat × Byte)) : List (Nat × Byte) :=
  w.map fun ab => (ab.1 - (d.base + sl * d.slotSize), ab.2)

/-- A write that lies in the first 256 bytes of one slot is captured there alone (R32). -/
theorem captureWrite_slot {r x : Fin 16} {sl : Nat} {w : List (Nat × Byte)} {s : State} (some : w ≠ [])
    (enabled : (s.ring r).state = .enabled) (running : s.ccu.part = .running) (slot : sl < (s.ring r).desc.slotCount)
    (size : 256 ≤ (s.ring r).desc.slotSize)
    (inside : ∀ ab ∈ w, (s.ring r).desc.base + sl * (s.ring r).desc.slotSize ≤ ab.1 ∧
      ab.1 < (s.ring r).desc.base + sl * (s.ring r).desc.slotSize + 256) :
    captureWrite r x w s = slotWrite r x sl (slotBytes (s.ring r).desc sl w) s := by
  generalize desc : (s.ring r).desc = d at slot size inside
  have last : (sl + 1) * d.slotSize ≤ d.slotCount * d.slotSize := Nat.mul_le_mul_right _ slot
  rw [Nat.add_mul, Nat.one_mul] at last
  have region : bytesIn d.base (d.slotCount * d.slotSize) w = w.map fun ab => (ab.1 - d.base, ab.2) :=
    bytesIn_inside fun ab mem => by
      have := inside ab mem
      omega
  have slots : ((w.map fun ab => (ab.1 - d.base, ab.2)).map fun ob => ob.1 / d.slotSize).dedup = [sl] := by
    have all : ((w.map fun ab => (ab.1 - d.base, ab.2)).map fun ob => ob.1 / d.slotSize) = List.replicate w.length sl := by
      rw [List.eq_replicate_iff]
      refine ⟨by simp, fun q mem => ?_⟩
      obtain ⟨ob, offset, rfl⟩ := List.mem_map.mp mem
      obtain ⟨ab, written, rfl⟩ := List.mem_map.mp offset
      have := inside ab written
      refine Nat.div_eq_of_lt_le ?_ ?_
      · dsimp only
        omega
      · dsimp only
        rw [Nat.add_mul, Nat.one_mul]
        omega
    rw [all, List.replicate_dedup (by simpa using some)]
  have part : bytesIn (sl * d.slotSize) 256 (w.map fun ab => (ab.1 - d.base, ab.2)) = slotBytes d sl w := by
    rw [bytesIn_inside]
    · rw [List.map_map, slotBytes]
      refine List.map_congr_left fun ab mem => ?_
      have := inside ab mem
      exact Prod.ext (by simp only [Function.comp_apply]; omega) rfl
    · intro ob mem
      obtain ⟨ab, written, rfl⟩ := List.mem_map.mp mem
      have := inside ab written
      dsimp only
      omega
  have present : slotBytes d sl w ≠ [] := fun none => some (List.map_eq_nil_iff.mp none)
  have captures : ((s.ring r).state = .enabled ∨ (s.ring r).state = .disabling) ∧ s.running = true :=
    ⟨.inl enabled, by rw [State.running, running]; rfl⟩
  unfold captureWrite
  dsimp only
  rw [desc, region, slots, List.foldl_cons, List.foldl_nil, part, if_neg present, if_pos captures]

/-- A write that meets the slot region of ring `r` alone is captured for it (R4). -/
theorem ringTreatments_capture {r x : Fin 16} {w : List (Nat × Byte)} {id : Nat} {s t : State}
    (part : t.ccu.part = s.ccu.part) (others : ∀ q, q ≠ r → t.ring q = s.ring q) (desc : (t.ring r).desc = (s.ring r).desc)
    (clear : ∀ q, q ≠ r → ClearOf s w q) (producer : Misses (s.ring r).desc.prodAddr 4 w)
    (consumer : Misses (s.ring r).desc.consAddr 4 w) (acts : capturedFor x w s r = t) :
    ringTreatments x w [] id s = t := by
  have clear' (q : Fin 16) (other : q ≠ r) : ClearOf t w q := (clearOf_congr (others q other) part).mpr (clear q other)
  have captures : (List.finRange 16).foldl (capturedFor x w) s = t :=
    foldl_only (List.nodup_finRange 16) (List.mem_finRange r) acts (fun q other => capturedFor_clear x (clear q other))
      fun q other => capturedFor_clear x (clear' q other)
  have consumes : (List.finRange 16).foldl (fun s r => consumerBytes r x w s) t = t := foldl_same fun q _ => by
    by_cases here : q = r
    · rw [here]
      exact consumerBytes_misses (by rw [desc]; exact consumer)
    · exact consumerBytes_clear x (clear' q here)
  refine ringTreatments_eq captures consumes (passed := t) (foldl_same fun q _ => ?_)
  by_cases here : q = r
  · rw [here]
    exact passProducer_misses (by rw [desc]; exact producer)
  · exact passProducer_clear x (clear' q here)

/-- Settles O12: the write meets one slot of the ring, whose capture takes the lowest FREE buffer. -/
theorem producerWriteIsCaptured : Obligations.ProducerWriteIsCaptured := by
  intro r x addr beats s sl b offered some running enabled uplink producer slot size inside free none bufferFree lower
    outside passes clear held prodWord consWord
  let w := writtenBytes addr.toNat beats
  let u := forwarded (plainWrite x addr beats) s
  let bytes := storeBytes (slotBytes (s.ring r).desc sl w) (Vector.replicate 256 0)
  let t := fillingFrom r sl (indexOf (s.ring r) sl) b bytes u
  have lowest : u.freeBufferIndex = .some b :=
    find?_finRange_lowest (beq_iff_eq.mpr bufferFree) fun c below => beq_eq_false_iff_ne.mpr (lower c below)
  have captures : capturedFor x w u r = t := by
    have opens : (u.windows r && (u.ring r).desc.dir == .uplink) = true := by
      rw [(windows_iff u r).mpr ⟨.inr (.inl enabled), .inl running⟩]
      exact beq_iff_eq.mpr uplink
    unfold capturedFor
    rw [if_pos opens, captureWrite_slot (s := u) some enabled running slot size inside]
    exact slotWrite_takes (s := u) enabled producer free none lowest
  have others (q : Fin 16) (other : q ≠ r) : t.ring q = s.ring q := withRing_ring_ne _ _ other
  have ring : t.ring r = { s.ring r with
      slotMap := mapPut sl (.filling b (indexOf (s.ring r) sl)) (s.ring r).slotMap } := withRing_ring ..
  have words (q : Fin 16) (active : Active s q) : Misses (s.ring q).desc.prodAddr 4 w := by
    by_cases here : q = r
    · rw [here]
      exact prodWord
    · exact (clear q here active).2.1
  have treats := ringTreatments_capture (s := u) (t := t) (id := s.lif.txnCount) (x := x) rfl others (by rw [ring]; rfl)
    (fun q other => (clearOf_congr (s := s) rfl rfl).mpr (clear q other)) prodWord consWord captures
  have leads : exec (.ulinkWrite x addr beats) s = .next t := by
    rw [exec_ulinkWrite offered, ulinkWrite_unheld (fun ab mem => (outside ab mem).2) (holders_none words fun _ => held) passes,
      treats, captureHost_outside (s := t) fun ab mem => (outside ab mem).1, settle_idle t offered.quiet]
  have filled : t.buffer b = { st := .filling r sl (indexOf (s.ring r) sl), bytes := bytes } :=
    Vector.getElem_set_self b.isLt
  refine ⟨t, leads, by simp [SameBut, t, u, fillingFrom, withRing, forwarded], rfl, ?_, ?_, ?_, rfl, fun k other => ?_,
    others, fun c other => ?_, fun o => ?_⟩
  · rw [ring]
    exact mapGet_mapPut ..
  · rw [filled]
  · rw [ring]
  · rw [ring]
    exact mapGet_mapPut_ne _ _ _ _ other
  · exact Vector.getElem_set_ne b.isLt c.isLt fun same => other (Fin.ext same.symm)
  · rw [filled]
    have unique : ∀ p ∈ slotBytes (s.ring r).desc sl w, ∀ q ∈ slotBytes (s.ring r).desc sl w, p.1 = q.1 → p.2 = q.2 := by
      intro p hp q hq same
      obtain ⟨p', hp', rfl⟩ := List.mem_map.mp hp
      obtain ⟨q', hq', rfl⟩ := List.mem_map.mp hq
      have low := (inside p' hp').1
      have low' := (inside q' hq').1
      dsimp only at same
      rw [writtenBytes_unique offered.burst.2 hp' hq' (by omega)]
    have stored := storeBytes_get (Vector.replicate 256 0) o unique
    rw [slotBytes, lookup_sub fun ab mem => (inside ab mem).1] at stored
    rw [show (Vector.replicate 256 (0 : Byte))[o] = 0 from Vector.getElem_replicate ..] at stored
    exact stored

end Sys2Proof.Machine
end

section
/-! # Held producer writes (01_the_memory_path.md, R8 to R12; 02, R34, R35) -/

namespace Sys2Proof.Machine

open Sys2Proof.Claims

/-! ## A write of one held word -/

/-- A write that meets the held word of ring `r` alone is held there alone (R8). -/
theorem holders_one {s : State} {w : List (Nat × Byte)} {r : Fin 16} (holds : s.holdsNow r = true)
    (some : bytesIn (s.ring r).desc.prodAddr 4 w ≠ [])
    (clear : ∀ q, q ≠ r → ClearOf s w q ∧ NothingHeld s w q) : s.holders w = [r] := by
  have only (q : Fin 16) : (s.holdsNow q && !(bytesIn (s.ring q).desc.prodAddr 4 w).isEmpty) = (q == r) := by
    by_cases here : q = r
    · rw [here, holds]
      simpa using some
    · have absent := not_mem_holders (fun active => ((clear q here).1 active).2.1) fun _ => (clear q here).2
      simp only [State.holders, List.mem_filter, List.mem_finRange, true_and, Bool.not_eq_true] at absent
      rw [absent]
      exact (beq_eq_false_iff_ne.mpr here).symm
  unfold State.holders
  rw [List.filter_congr fun q _ => only q, List.filter_beq,
    List.count_eq_one_of_mem (List.nodup_finRange 16) (List.mem_finRange r)]
  rfl

/-- No strobe is left of a write whose bytes are all held (R9; log 6). -/
theorem clearStrobes_whole {held : Nat → Bool} {addr : Nat} {beats : List Beat}
    (whole : ∀ ab ∈ writtenBytes addr beats, held ab.1 = true) :
    ((clearStrobes held addr beats).all fun b => b.strobes == 0) = true := by
  rw [List.all_eq_true]
  intro b mem
  obtain ⟨⟨b', n⟩, beat, rfl⟩ := List.mem_map.mp mem
  have none : (List.range 16).filter (fun j => beatStrobe b' j && !held (beatPlace (addr + 16 * n) + j)) = [] := by
    rw [List.filter_eq_nil_iff]
    intro j inBeat clears
    rw [Bool.and_eq_true, Bool.not_eq_true'] at clears
    have written : (beatPlace (addr + 16 * n) + j, beatByte b' j) ∈ writtenBytes addr beats := by
      rw [writtenBytes_eq, List.mem_flatMap]
      exact ⟨(b', n), beat, mem_beatBytes.mpr ⟨j, List.mem_range.mp inBeat, clears.1, rfl⟩⟩
    rw [whole _ written] at clears
    exact Bool.noConfusion clears.2
  dsimp only
  rw [none]
  rfl

/-- `s` with a new held transaction of initiator `x` (R9; log 35). -/
def heldOpened (x : Fin 16) (s : State) : State :=
  { s with lif := { s.lif with
      txnCount := s.lif.txnCount + 1
      heldTxns := s.lif.heldTxns ++ [{ id := s.lif.txnCount, initiator := x, err := false }] } }

/-- A write whose bytes all lie in held word `a` puts nothing on the forward path (log 6). -/
theorem forwardWrite_whole {x : Fin 16} {addr : Word} {beats : List Beat} {a : Nat} {s : State}
    (whole : ∀ ab ∈ writtenBytes addr.toNat beats, a ≤ ab.1 ∧ ab.1 < a + 4) :
    forwardWrite x addr beats [(a, 4)] s.lif.txnCount s = heldOpened x s := by
  have early := clearStrobes_whole (held := fun q => [(a, 4)].any fun w => decide (w.1 ≤ q) && decide (q < w.1 + w.2))
    (addr := addr.toNat) (beats := beats) fun ab mem => by simpa using whole ab mem
  unfold forwardWrite
  rw [if_neg (List.cons_ne_nil _ _)]
  dsimp only
  rw [if_pos early]
  rfl

/-- A write that meets the held word of ring `r` alone gets the treatment of that word alone (R4, R9). -/
theorem ringTreatments_held {r x : Fin 16} {w : List (Nat × Byte)} {id : Nat} {s : State}
    (clear : ∀ q, q ≠ r → ClearOf s w q)
    (region : Misses (s.ring r).desc.base ((s.ring r).desc.slotCount * (s.ring r).desc.slotSize) w)
    (consumer : Misses (s.ring r).desc.consAddr 4 w) :
    ringTreatments x w [r] id s = holdProducers x id [r] w s := by
  refine ringTreatments_eq (captured := s) (consumed := s) (passed := s) (foldl_same fun q _ => ?_)
    (foldl_same fun q _ => ?_) (foldl_same fun q _ => ?_) <;> by_cases here : q = r
  · rw [here]
    unfold capturedFor
    split
    · exact captureWrite_misses region
    · rfl
  · exact capturedFor_clear x (clear q here)
  · rw [here]
    exact consumerBytes_misses consumer
  · exact consumerBytes_clear x (clear q here)
  · exact if_pos (by simp [here])
  · exact (if_neg (by simp [here])).trans (passProducer_clear x (clear q here))

/-! ## The slot -/

theorem withSlot_slot (r : Fin 16) (sl : HeldSlot) (s : State) : (withSlot r sl s).slot r = sl :=
  Vector.getElem_set_self r.isLt

theorem withSlot_slot_ne {r q : Fin 16} (sl : HeldSlot) (s : State) (other : q ≠ r) :
    (withSlot r sl s).slot q = s.slot q := Vector.getElem_set_ne r.isLt q.isLt fun same => other (Fin.ext same.symm)

theorem withSlot_withSlot (r : Fin 16) (sl sl' : HeldSlot) (s : State) :
    withSlot r sl' (withSlot r sl s) = withSlot r sl' s := by
  simp [withSlot]

theorem onSlot_withSlot (r : Fin 16) (sl : HeldSlot) (f : HeldSlot → HeldSlot) (s : State) :
    (withSlot r sl s).onSlot r f = withSlot r (f sl) s := by
  have reads : (withSlot r sl s).onSlot r f = withSlot r (f ((withSlot r sl s).slot r)) (withSlot r sl s) := rfl
  rw [reads, withSlot_slot, withSlot_withSlot]

/-- The slot of transactions `ids` of initiator `x`, COMMITTING the value `v`. -/
def committingSlot (x : Fin 16) (ids : List Nat) (v : Word) : HeldSlot :=
  { status := .committing, withheld := ids, joined := [], pend := [], completed := some v, target := some v,
    targetInit := x, lastInit := x }

/-- A slot that holds nothing but the first `k` bytes of a word, of the transactions `early` (R9). -/
def earlySlot (y : Fin 16) (early : List Nat) (v : Word) (k : Nat) : HeldSlot :=
  if k = 0 then .empty
  else { HeldSlot.empty with status := .holding, withheld := early, pend := (wordBytes v).take k, lastInit := y }

/-- The last bytes of a held word complete its value, which is handed on as a commit request (R9, R10). -/
theorem holdProducers_completes {r x y : Fin 16} {w : List (Nat × Byte)} {id k : Nat} {v : Word} {early : List Nat}
    {s : State} (bound : k < 4) (none : k = 0 → early = []) (enabled : (s.ring r).state = .enabled)
    (written : bytesIn (s.ring r).desc.prodAddr 4 w = (wordBytes v).drop k) (slot : s.slot r = earlySlot y early v k) :
    holdProducers x id [r] w s = handProducer r x v true (withSlot r (committingSlot x (early ++ [id]) v) s) := by
  have assembles : assemble 4 (s.slot r).pend ((wordBytes v).drop k) = ([], some v.toNat) := by
    refine assemble_last bound ?_
    by_cases whole : k = 0
    · exact .inl whole
    · rw [slot, earlySlot, if_neg whole]
      exact .inr rfl
  have enrols : enrol x id w s r = withSlot r { HeldSlot.empty with
      status := .holding, withheld := early ++ [id], lastInit := x } s := by
    have reads : enrol x id w s r = withSlot r { s.slot r with
        status := if (s.slot r).status = .empty then .holding else (s.slot r).status
        withheld := (s.slot r).withheld ++ [id]
        lastInit := x
        pend := (assemble 4 (s.slot r).pend (bytesIn (s.ring r).desc.prodAddr 4 w)).1 } s := rfl
    rw [reads, written, assembles, slot, earlySlot]
    by_cases whole : k = 0
    · rw [if_pos whole, none whole]
      rfl
    · rw [if_neg whole]
      rfl
  unfold holdProducers
  dsimp only
  rw [List.filterMap_cons, written, assembles]
  dsimp only [Option.map_some, List.filterMap_nil, List.foldl_cons, List.foldl_nil]
  rw [enrols, BitVec.ofNat_toNat, BitVec.setWidth_eq]
  unfold slotComplete
  dsimp only
  rw [onSlot_withSlot, withSlot_slot]
  dsimp only
  rw [if_pos (show ((withSlot r _ s).ring r).state = .enabled from enabled), onSlot_withSlot]
  rfl

/-! ## The request (R10, R11, R12, R34, R35) -/

/-- The write that ring `r`'s slot `sl` releases, of the bytes `bytes` (R11, R12). -/
def slotRelease (d : RingDesc) (sl : HeldSlot) (bytes : Assembly) : FwdTxn :=
  { initiator := sl.lastInit, addr := BitVec.ofNat 32 (d.prodAddr / 16 * 16), isRead := false, burst := 1,
    beats := [beatAt (d.prodAddr % 16) bytes], direct := false, held := sl.withheld ++ sl.joined }

/-- A slot whose word no other slot holds releases its write, and is EMPTY (R11, R12). -/
theorem releaseSlot_eq {r : Fin 16} {s : State} (bytes : Assembly)
    (alone : ∀ q, q ≠ r → (s.ring q).desc.prodAddr = (s.ring r).desc.prodAddr → (s.slot q).status = .empty) :
    releaseSlot r bytes s = withSlot r .empty (forwarded (slotRelease (s.ring r).desc (s.slot r) bytes) s) := by
  rw [releaseSlot_alone r bytes s (sharing_none alone)]
  rfl

theorem slotRelease_committing (d : RingDesc) (x : Fin 16) (ids : List Nat) (v : Word) (bytes : Assembly) :
    slotRelease d (committingSlot x ids v) bytes =
      { initiator := x, addr := BitVec.ofNat 32 (d.prodAddr / 16 * 16), isRead := false, burst := 1,
        beats := [beatAt (d.prodAddr % 16) bytes], direct := false, held := ids } := by
  simp [slotRelease, committingSlot]

theorem uncommittedBytes_committing (x : Fin 16) (ids : List Nat) (v : Word) :
    uncommittedBytes (committingSlot x ids v) = wordBytes v := by
  change (wordBytes v).map (fun pb => (pb.1, (Option.none : Option Byte).getD pb.2)) = wordBytes v
  exact List.map_id _

/-- A ring resynced to `v` (R35). -/
def resyncedRing (v : Word) (g : Ring) : Ring :=
  let c := if g.desc.slotCount < (v - g.cons).toNat then v else g.cons
  { g with
    commit := none, prod := v, cons := c, above := decide (g.desc.high ≤ (v - c).toNat)
    resyncs := min (g.resyncs + 1) 4294967295, slotMap := [] }

/-- A resync before its event and its record: the slots cleared, and the indices (R35). -/
def resynced (r : Fin 16) (v : Word) (s : State) : State :=
  withRing r (resyncedRing v (s.ring r)) (dropSlotInProgress r (clearSlots r s))

theorem onRing_eq {r : Fin 16} {g : Ring} {s : State} (ring : s.ring r = g) (f : Ring → Ring) :
    s.onRing r f = withRing r (f g) s := by
  rw [← ring]
  rfl

/-- A resync raises its event and asks for the ring's record, and then releases the held write (R35). -/
theorem resync_asks (r : Fin 16) (v : Word) (s : State) : resync r v true s = releaseWithoutCommit r
    ((raised [event .rmn .ringResync .ring r.val (s.ring r).prod.toNat v.toNat 0] (resynced r v s)).ask .rmn
      (.ringRecord r)) := by
  have base : (dropSlotInProgress r (clearSlots r s)).ring r = { s.ring r with slotMap := [] } := clearSlots_ring r s
  unfold resync
  dsimp only
  rw [if_pos rfl, onRing_eq base, raise_eq_raised]
  rfl

theorem withSlot_forwarded_ask (r : Fin 16) (sl : HeldSlot) (x : FwdTxn) (l : List EventReq) (b : Block) (op : InjOp)
    (s : State) : withSlot r sl (forwarded x ((raised l s).ask b op)) =
      (raised l (withSlot r sl (forwarded x s))).ask b op := rfl

theorem resynced_ring (r : Fin 16) (v : Word) (s : State) : (resynced r v s).ring r = resyncedRing v (s.ring r) :=
  withRing_ring ..

theorem resynced_ring_ne {r q : Fin 16} (v : Word) (s : State) (other : q ≠ r) : (resynced r v s).ring q = s.ring q :=
  (withRing_ring_ne _ (dropSlotInProgress r (clearSlots r s)) other).trans (clearSlots_ring_ne s other)

theorem resynced_lif {r : Fin 16} (v : Word) {s : State} (quiet : s.lif.injWaiting = []) :
    (resynced r v s).lif = s.lif := by
  have lif : (resynced r v s).lif = { s.lif with injWaiting := s.lif.injWaiting.filter fun w => match w.2 with
      | .receipt c => c.ring != r
      | _ => true } := rfl
  rw [lif, quiet, List.filter_nil, ← quiet]

theorem resynced_buffer (r : Fin 16) (v : Word) (s : State) (b : Fin 64) (sl : Nat) (j : Word) :
    ((resynced r v s).buffer b).st ≠ .filling r sl j := clearSlots_buffer r s b sl j

theorem resynced_dispatch (r : Fin 16) (v : Word) (s : State) : (resynced r v s).rmn.dispatch = s.rmn.dispatch := rfl

/-- A resync reaches the ring monitor alone, where no request waits. -/
theorem resynced_keeps {r : Fin 16} (v : Word) {s : State} (quiet : s.lif.injWaiting = []) :
    SameBut false true false false false false false false false s (resynced r v s) := by
  have lif := resynced_lif (r := r) v quiet
  have rest : SameBut true true false false false false false false false s (resynced r v s) := by
    simp [SameBut, resynced, withRing, dropSlotInProgress, clearSlots, setMidway, freeRingTrackers, freeRingBuffers]
  obtain ⟨pending, pins, -, -, others⟩ := rest
  exact ⟨pending, pins, fun _ => lif, nofun, others⟩

/-- A ring's record joins the injection queue (R177). -/
theorem settle_ringRecord {r : Fin 16} {g : Ring} {s u : State} (ring : u.ring r = g) (pins : u.pins = s.pins)
    (quiet : u.lif.injWaiting = []) (room : u.lif.injQueue.length < Config.injectionDepth) :
    settle (u.ask .rmn (.ringRecord r)) = injected (ringEntry r g s) u := by
  have joins : joinOp .rmn (.ringRecord r) u = injected (ringEntry r (u.ring r) u) u := rfl
  have entry : ringEntry r g u = ringEntry r g s := by
    unfold ringEntry areaEntry State.areaBase
    rw [pins]
  rw [settle_ask quiet room, joins, ring, entry]
  exact settle_idle _ quiet

/-- What a held write that is released behind a resync leads to. -/
def resyncReleased (r : Fin 16) (v : Word) (sl : HeldSlot) (s : State) : State :=
  raised [event .rmn .ringResync .ring r.val (s.ring r).prod.toNat v.toNat 0]
    (withSlot r .empty (forwarded (slotRelease (s.ring r).desc sl (uncommittedBytes sl)) (resynced r v s)))

theorem releaseWithoutCommit_pins (r : Fin 16) (s : State) : (releaseWithoutCommit r s).pins = s.pins := by
  unfold releaseWithoutCommit
  split
  · rfl
  · unfold releaseSlot
    split <;> rfl

theorem resync_pins (r : Fin 16) (v : Word) (s : State) : (resync r v true s).pins = s.pins := by
  rw [resync_asks, releaseWithoutCommit_pins]
  rfl

/-- A resync that a held write asks for releases the write (R12, R35). -/
theorem resync_held {r : Fin 16} {v : Word} {s : State} {sl : HeldSlot} (slot : s.slot r = sl) (full : sl.status ≠ .empty)
    (quiet : s.lif.injWaiting = []) (room : s.lif.injQueue.length < Config.injectionDepth)
    (alone : ∀ q, q ≠ r → (s.ring q).desc.prodAddr = (s.ring r).desc.prodAddr → (s.slot q).status = .empty) :
    settle (resync r v true s) = injected (ringEntry r (resyncedRing v (s.ring r)) s) (resyncReleased r v sl s) := by
  have asks := resync_asks r v s
  have ring := resynced_ring r v s
  have others (q : Fin 16) (other : q ≠ r) := resynced_ring_ne v s other
  have lif := resynced_lif (r := r) v quiet
  have pins : (resynced r v s).pins = s.pins := rfl
  rw [asks, resyncReleased]
  generalize resynced r v s = w at ring others lif pins ⊢
  have slots (q : Fin 16) : w.slot q = s.slot q := congrArg (fun l : Lif => l.slots[q]) lif
  have desc : (w.ring r).desc = (s.ring r).desc := by rw [ring]; rfl
  let asked := (raised [event .rmn .ringResync .ring r.val (s.ring r).prod.toNat v.toNat 0] w).ask .rmn (.ringRecord r)
  have holds : asked.slot r = sl := (slots r).trans slot
  have alone' (q : Fin 16) (other : q ≠ r) (shares : (asked.ring q).desc.prodAddr = (asked.ring r).desc.prodAddr) :
      (asked.slot q).status = .empty := by
    have same : (s.ring q).desc.prodAddr = (s.ring r).desc.prodAddr := by
      rw [← others q other, ← desc]
      exact shares
    exact (congrArg HeldSlot.status (slots q)).trans (alone q other same)
  have releases : releaseWithoutCommit r asked =
      withSlot r .empty (forwarded (slotRelease (s.ring r).desc sl (uncommittedBytes sl)) asked) := by
    rw [releaseWithoutCommit, holds, if_neg full, releaseSlot_eq _ alone', holds, ← desc]
    rfl
  rw [releases, withSlot_forwarded_ask]
  exact settle_ringRecord ring pins ((congrArg Lif.injWaiting lif).trans quiet) (by
    change w.lif.injQueue.length < _
    rw [lif]
    exact room)

/-- A write of the last bytes of ring `r`'s held word, from byte `k` on, that meets nothing else (R8, R9). -/
structure HeldWrite (r y : Fin 16) (addr : Word) (beats : List Beat) (s : State) (v : Word) (k : Nat) (early : List Nat) :
    Prop where
  offered : Offered addr beats s
  bound : k < 4
  depth : early.length < 16
  whole : k = 0 → early = []
  written : writtenBytes addr.toNat beats = (wordAt (s.ring r).desc.prodAddr v).drop k
  running : s.ccu.part = .running
  enabled : (s.ring r).state = .enabled
  uplink : (s.ring r).desc.dir = .uplink
  receipts : (s.ring r).desc.receipts = true
  slot : s.slot r = earlySlot y early v k
  outside : OutsideArea s (writtenBytes addr.toNat beats)
  passes : NoRewrite s addr beats
  clear : ∀ q, q ≠ r → ClearOf s (writtenBytes addr.toNat beats) q ∧ NothingHeld s (writtenBytes addr.toNat beats) q
  region : Misses (s.ring r).desc.base ((s.ring r).desc.slotCount * (s.ring r).desc.slotSize) (writtenBytes addr.toNat beats)
  consumer : Misses (s.ring r).desc.consAddr 4 (writtenBytes addr.toNat beats)

section
variable {r y : Fin 16} {addr : Word} {beats : List Beat} {s : State} {v : Word} {k : Nat} {early : List Nat}
  (h : HeldWrite r y addr beats s v k early)
include h

theorem HeldWrite.bytes : bytesIn (s.ring r).desc.prodAddr 4 (writtenBytes addr.toNat beats) = (wordBytes v).drop k := by
  rw [h.written, bytesIn_wordAt_drop]

theorem HeldWrite.touches : bytesIn (s.ring r).desc.prodAddr 4 (writtenBytes addr.toNat beats) ≠ [] := by
  rw [h.bytes]
  exact wordBytes_drop_ne_nil h.bound

/-- No other slot holds the word. -/
theorem HeldWrite.alone (q : Fin 16) (other : q ≠ r) (shares : (s.ring q).desc.prodAddr = (s.ring r).desc.prodAddr) :
    (s.slot q).status = .empty := by
  by_contra full
  refine h.touches (bytesIn_misses ?_)
  rw [← shares]
  exact (h.clear q other).2 full

/-- The write comes to the commit request of the value that it completes (R9, R10). -/
theorem HeldWrite.requests {x : Fin 16} {t : State} (pins : t.pins = s.pins)
    (hands : handProducer r x v true (withSlot r (committingSlot x (early ++ [s.lif.txnCount]) v) (heldOpened x s)) = t) :
    exec (.ulinkWrite x addr beats) s = .next (settle t) := by
  have holds : s.holdsNow r = true := by
    simp [State.holdsNow, State.running, h.running, h.enabled, RingDesc.holds, h.uplink, h.receipts]
  have holders := holders_one holds h.touches h.clear
  have own : ¬((writtenBytes addr.toNat beats).any fun ab => s.inPartPage ab.1) = true := by
    simp only [List.any_eq_true, not_exists, not_and]
    exact fun ab hab owned => (h.outside ab hab).2 ((inPartPage_iff s ab.1).mp owned)
  have fits : ¬(([r] : List (Fin 16)).any fun r => Config.withheldDepth ≤ (s.slot r).withheld.length) = true := by
    have few : (s.slot r).withheld.length < 16 := by
      rw [h.slot, earlySlot]
      split
      · exact Nat.zero_lt_succ _
      · exact h.depth
    rw [List.any_cons, List.any_nil, Bool.or_false, decide_eq_true_eq]
    exact Nat.not_le.mpr few
  have whole : ∀ ab ∈ writtenBytes addr.toNat beats,
      (s.ring r).desc.prodAddr ≤ ab.1 ∧ ab.1 < (s.ring r).desc.prodAddr + 4 := by
    rw [h.written, wordAt_drop]
    intro ab mem
    obtain ⟨pb, dropped, rfl⟩ := List.mem_map.mp mem
    have := wordBytes_position (List.mem_of_mem_drop dropped)
    dsimp only
    omega
  have treats := (ringTreatments_held (x := x) (id := s.lif.txnCount) (s := heldOpened x s)
    (fun q other => (clearOf_congr (s := s) rfl rfl).mpr (h.clear q other).1) h.region h.consumer).trans
      (holdProducers_completes (s := heldOpened x s) h.bound h.whole h.enabled h.bytes h.slot)
  have area : t.areaBase = s.areaBase := by rw [State.areaBase, pins, State.areaBase]
  have taken : ulinkWrite x addr beats s = t := by
    unfold ulinkWrite
    dsimp only
    rw [if_neg own, holders, if_neg fits]
    unfold acceptWrite
    dsimp only
    rw [holders, rewriteBeats_noRewrite h.passes, List.map_cons, List.map_nil, forwardWrite_whole whole, treats,
      hands]
    exact captureHost_outside fun ab mem => by rw [InHostPage, area]; exact (h.outside ab mem).1
  rw [exec_ulinkWrite h.offered, taken]

/-- The ring monitor takes the value up as a commit request (R10, R34). -/
theorem HeldWrite.begins (none : (s.ring r).commit = none) (x : Fin 16) (u : State)
    (ring : u.ring r = s.ring r) (part : u.ccu.part = s.ccu.part) :
    handProducer r x v true u = beginCommit r v true (withRing r { s.ring r with valueFrom := some x } u) := by
  have running : u.running = true := by rw [State.running, part, h.running]; rfl
  rcases handProducer_cases r x v true u (.inl (by rw [ring]; exact h.enabled)) with ⟨c, commit, -⟩ | ⟨-, -, leads⟩ | ⟨idle, -⟩
  · rw [ring, none] at commit
    cases commit
  · rw [leads, ← ring]
    rfl
  · rw [running] at idle
    cases idle

end

/-- A request for the value P releases the slot's write at once (R11, R34). -/
theorem beginCommit_releases {r x : Fin 16} {v : Word} {ids : List Nat} {s : State} (same : v = (s.ring r).prod)
    (slot : s.slot r = committingSlot x ids v)
    (alone : ∀ q, q ≠ r → (s.ring q).desc.prodAddr = (s.ring r).desc.prodAddr → (s.slot q).status = .empty) :
    beginCommit r v true s =
      withSlot r .empty (forwarded (slotRelease (s.ring r).desc (committingSlot x ids v) (wordBytes v)) s) := by
  unfold beginCommit
  dsimp only
  rw [if_pos same, if_pos rfl]
  unfold releaseAfterCommit
  dsimp only
  rw [slot]
  exact (releaseSlot_eq (wordBytes v) alone).trans (by rw [slot])

/-- A request for a value up to the slot count beyond P and C begins a commit (R34). -/
theorem beginCommit_begins {r : Fin 16} {v : Word} {s : State} (other : v ≠ (s.ring r).prod)
    (near : (v - (s.ring r).prod).toNat ≤ (s.ring r).desc.slotCount ∧ (v - (s.ring r).cons).toNat ≤ (s.ring r).desc.slotCount) :
    beginCommit r v true s = withRing r { s.ring r with commit := some { target := v, byRequest := true } } s := by
  unfold beginCommit
  dsimp only
  rw [if_neg other, if_neg (by omega)]
  rfl

/-- A request for a value beyond that resyncs the ring (R35). -/
theorem beginCommit_resyncs {r : Fin 16} {v : Word} {s : State} (other : v ≠ (s.ring r).prod)
    (far : ¬((v - (s.ring r).prod).toNat ≤ (s.ring r).desc.slotCount ∧ (v - (s.ring r).cons).toNat ≤ (s.ring r).desc.slotCount)) :
    beginCommit r v true s = resync r v true s := by
  unfold beginCommit
  dsimp only
  rw [if_neg other, if_pos (by omega)]

/-- Settles O10: the last bytes of a held word complete its value, which releases the write, begins a commit or resyncs. -/
theorem wholeProducerWriteIsHeldAndCommits : Obligations.WholeProducerWriteIsHeldAndCommits := by
  intro r x y addr beats s v k early offered bound depth none written running enabled uplink receipts idle slot outside passes
    clear region consumer g near held released
  have h : HeldWrite r y addr beats s v k early :=
    ⟨offered, bound, depth, none, written, running, enabled, uplink, receipts, slot, outside, passes, clear, region, consumer⟩
  let sl := committingSlot x (early ++ [s.lif.txnCount]) v
  let u := withRing r { g with valueFrom := some x } (withSlot r sl held)
  have begins : handProducer r x v true (withSlot r sl (heldOpened x s)) = beginCommit r v true u :=
    h.begins idle x (withSlot r sl held) rfl rfl
  have ring : u.ring r = { g with valueFrom := some x } := withRing_ring ..
  have slot_ : u.slot r = sl := withSlot_slot ..
  have alone : ∀ q, q ≠ r → (u.ring q).desc.prodAddr = (u.ring r).desc.prodAddr → (u.slot q).status = .empty := by
    intro q other shares
    rw [show u.ring q = s.ring q from withRing_ring_ne _ _ other, ring] at shares
    rw [show u.slot q = s.slot q from withSlot_slot_ne _ _ other]
    exact h.alone q other shares
  refine ⟨fun same => ?_, fun other nearP nearC => ?_, fun other far room => ?_⟩
  · have leads := begins.trans (beginCommit_releases (s := u) (same.trans (by rw [ring])) slot_ alone)
    have commits : exec (.ulinkWrite x addr beats) s = _ := h.requests (by exact rfl) leads
    rw [commits]
    refine congrArg Host.Outcome.next ((settle_idle _ (by exact offered.quiet)).trans ?_)
    rw [ring, slotRelease_committing]
    change withRing r _ (withSlot r .empty (withSlot r sl (forwarded released held))) = _
    rw [withSlot_withSlot]
  · have leads := begins.trans (beginCommit_begins (s := u) (by rw [ring]; exact other) (by rw [ring]; exact ⟨nearP, nearC⟩))
    have commits : exec (.ulinkWrite x addr beats) s = _ := h.requests (by exact rfl) leads
    rw [commits, ring]
    refine congrArg Host.Outcome.next ((settle_idle _ (by exact offered.quiet)).trans ?_)
    exact withRing_withRing ..
  · intro c
    have leads := begins.trans (beginCommit_resyncs (s := u) (by rw [ring]; exact other) (by rw [ring]; exact far))
    have resyncs := resync_held (v := v) slot_ nofun offered.quiet room alone
    rw [ring] at resyncs
    have pins : (resync r v true u).pins = s.pins := resync_pins ..
    have commits : exec (.ulinkWrite x addr beats) s = _ := h.requests pins leads
    rw [resyncs] at commits
    have release : slotRelease g.desc sl (uncommittedBytes sl) = released := by
      rw [uncommittedBytes_committing, slotRelease_committing]
    have new : resyncedRing v { g with valueFrom := some x } = { g with
        prod := v, cons := c, above := decide (g.desc.high ≤ (v - c).toNat),
        resyncs := min (g.resyncs + 1) 4294967295, slotMap := [], valueFrom := some x } := by
      unfold resyncedRing
      rw [← idle]
    have rings (q : Fin 16) (other : q ≠ r) : (resynced r v u).ring q = s.ring q :=
      (resynced_ring_ne v u other).trans (withRing_ring_ne _ _ other)
    have ring_ : (resynced r v u).ring r = _ := (resynced_ring r v u).trans (by rw [ring, new])
    have buffers := resynced_buffer r v u
    have dispatch : (resynced r v u).rmn.dispatch = s.rmn.dispatch := resynced_dispatch ..
    obtain ⟨pending, pins, lif, -, tdr, csv, rfm, cvm, tbs, ccu, rpw⟩ := resynced_keeps (r := r) v (s := u) offered.quiet
    have lif_ := lif rfl
    rw [resyncReleased, ring, new, release] at commits
    generalize resynced r v u = w at commits rings ring_ buffers dispatch pending pins lif_ tdr csv rfm cvm tbs ccu rpw
    refine ⟨_, commits, ⟨pending, pins, nofun, nofun, tdr, csv, rfm, cvm, tbs, ccu, nofun⟩, ring_, rings, buffers, dispatch,
      withSlot_slot .., fun q other => ?_, ?_, ?_, ?_, ?_⟩
    · refine (withSlot_slot_ne .empty (forwarded released w) other).trans ?_
      exact (congrArg (fun l : Lif => l.slots[q]) lif_).trans (withSlot_slot_ne sl held other)
    · exact (congrArg Lif.heldTxns lif_ :)
    · exact (congrArg (fun l : Lif => l.forwardPath ++ [released]) lif_ :)
    · exact congrArg (fun p : Rpw => { p with events := p.events ++
        [event .rmn .ringResync .ring r.val g.prod.toNat v.toNat 0] }) (rpw rfl)
    · refine (congrArg (fun l : Lif => l.injQueue ++ [ringEntry r _ u]) lif_).trans ?_
      exact congrArg (fun q => s.lif.injQueue ++ [ringEntry r q s]) ring_.symm

end Sys2Proof.Machine
end

section
/-! # A byte of the configuration block (09, R166, R167)

A write of one field of one byte: its capture, its clamp, its locks and what follows it. -/

namespace Sys2Proof.Machine

open Sys2Proof.Claims

/-! ## The capture of one byte -/

/-- A field is found at its first byte. -/
theorem fieldStart_of_width {off width : Nat} (field : fieldWidth off = some width) (wide : 0 < width) :
    fieldStart off = some off := by
  have range : List.range 4 = 0 :: [1, 2, 3] := rfl
  unfold fieldStart
  rw [range, List.findSome?_cons, if_pos (Nat.zero_le off), Nat.sub_zero, field]
  dsimp only
  rw [if_pos wide]

/-- One byte of a host page is found at its offset. -/
theorem bytesIn_byte {lo len off : Nat} (v : Byte) (inside : off < len) : bytesIn lo len [(lo + off, v)] = [(off, v)] := by
  have moved := bytesIn_inside (lo := lo) (len := len) (w := [(lo + off, v)]) fun ab mem => by
    rw [List.mem_singleton.mp mem]
    exact ⟨Nat.le_add_right .., Nat.add_lt_add_left inside lo⟩
  rw [moved, List.map_singleton, Nat.add_sub_cancel_left]

theorem misses_byte {lo len off : Nat} (v : Byte) (outside : ¬(lo ≤ off ∧ off < lo + len)) : Misses lo len [(off, v)] := by
  intro ab mem
  rw [List.mem_singleton.mp mem]
  exact outside

/-- A field of one byte is complete with its byte (R6). -/
theorem assembleHost_byte {off : Nat} {s : State} (v : Byte) (none : s.lif.hostShadow = []) :
    assembleHost off 1 [(off, v)] s = (s, some v.toNat) := by
  have written : bytesIn off 1 [(off, v)] = [(0, v)] := bytesIn_byte (lo := off) (off := 0) v Nat.one_pos
  have value : leVal [v] = v.toNat := rfl
  have assembles : assemble 1 [] [(0, v)] = ([], some v.toNat) := rfl
  unfold assembleHost
  dsimp only
  rw [none, written, show bytesIn off 1 [] = [] from rfl, assembles]
  dsimp only [List.filter_nil, List.foldl_nil]
  rw [← none]
  rfl

/-- A byte of the configuration block that is a field of its own is applied (R166). -/
theorem captureHost_byte {x : Fin 16} {off : Nat} {v : Byte} {s : State} (none : s.lif.hostShadow = []) (block : off < 0x400)
    (field : fieldWidth off = some 1) :
    captureHost x [(s.areaBase + off, v)] s = applyConfig off v.toNat (caught x s) := by
  have inArea : bytesIn s.areaBase 0x6000 [(s.areaBase + off, v)] = [(off, v)] := bytesIn_byte v (by omega)
  have config : captureConfig [(off, v)] (caught x s) = applyConfig off v.toNat (caught x s) := by
    have starts : ([(off, v)].filter fun ob => decide (ob.1 < 0x400)).filterMap (fun ob => fieldStart ob.1) = [off] := by
      rw [List.filter_cons_of_pos (by simpa using block), List.filter_nil, List.filterMap_cons,
        fieldStart_of_width field Nat.one_pos]
      rfl
    have unique : ([off] : List Nat).dedup = [off] := List.dedup_eq_self.mpr (List.nodup_singleton off)
    unfold captureConfig
    rw [starts, unique, List.foldl_cons, List.foldl_nil]
    dsimp only
    rw [field, Option.getD_some, assembleHost_byte (s := caught x s) v none]
  have commands (u : State) : captureCommands [(off, v)] u = u := captureCommands_outside (misses_byte v (by omega))
  have indices (u : State) : captureIndices [(off, v)] u = u := captureIndices_below fun ob mem => by
    rw [List.mem_singleton.mp mem]
    dsimp only
    omega
  unfold captureHost
  dsimp only
  rw [inArea, if_neg (List.cons_ne_nil _ _)]
  change captureIndices [(off, v)] (captureCommands [(off, v)] (captureConfig [(off, v)] (caught x s))) = _
  rw [config, commands, indices]

/-- A write of such a byte, off the rings, comes to the field's value. -/
theorem exec_ulinkWrite_byte {x : Fin 16} {addr : Word} {beats : List Beat} {s t : State} {off : Nat} {v : Byte}
    (offered : Offered addr beats s) (none : s.lif.hostShadow = [])
    (written : writtenBytes addr.toNat beats = [(s.areaBase + off, v)]) (block : off < 0x400)
    (field : fieldWidth off = some 1) (passes : NoRewrite s addr beats)
    (clear : ∀ r, ClearOf s (writtenBytes addr.toNat beats) r)
    (held : s.working = true → ∀ r, NothingHeld s (writtenBytes addr.toNat beats) r)
    (applies : applyConfig off v.toNat (caught x (forwarded (plainWrite x addr beats) s)) = t) :
    exec (.ulinkWrite x addr beats) s = .next (settle t) := by
  have own : ∀ ab ∈ writtenBytes addr.toNat beats, ¬InPartPage s ab.1 := by
    intro ab mem
    rw [written] at mem
    rw [List.mem_singleton.mp mem]
    unfold InPartPage
    dsimp only
    omega
  have captures : captureHost x [(s.areaBase + off, v)] (forwarded (plainWrite x addr beats) s) = t :=
    (captureHost_byte (s := forwarded (plainWrite x addr beats) s) none block field).trans applies
  rw [exec_ulinkWrite offered, ulinkWrite_offTheRings own passes clear held, written, captures]

/-! ## The fields below 0x200 -/

/-- A value of such a field is applied where it changes the shadow and no lock is in force (R167). -/
theorem applyConfig_applies {off v : Nat} {f : Field} {s : State} (below : off < 0x200) (field : configField off = some f)
    (changes : f.clamp s.ccu.cfg v ≠ f.get s.ccu.cfg) (free : s.lockOf off (f.clamp s.ccu.cfg v) = none) :
    applyConfig off v s =
      afterChange off { s with ccu := { s.ccu with cfg := f.put (f.clamp s.ccu.cfg v) s.ccu.cfg } } := by
  unfold applyConfig applyField
  rw [if_neg (by omega), field]
  dsimp only
  rw [if_neg changes, free]
  rfl

/-- A value that is the applied one changes nothing (R167). -/
theorem applyConfig_same {off v : Nat} {f : Field} {s : State} (below : off < 0x200) (field : configField off = some f)
    (same : f.clamp s.ccu.cfg v = f.get s.ccu.cfg) : applyConfig off v s = s := by
  unfold applyConfig applyField
  rw [if_neg (by omega), field]
  exact if_pos same

/-- A value that a lock bars raises CONFIG_LOCKED (R167). -/
theorem applyConfig_locked {off v : Nat} {f : Field} {s : State} {cause : LockCause} (below : off < 0x200)
    (field : configField off = some f) (changes : f.clamp s.ccu.cfg v ≠ f.get s.ccu.cfg)
    (barred : s.lockOf off (f.clamp s.ccu.cfg v) = some cause) : applyConfig off v s =
      raised [event .ccu .configLocked .field off (f.clamp s.ccu.cfg v) (f.get s.ccu.cfg) (lockCode cause)] s := by
  unfold applyConfig applyField
  rw [if_neg (by omega), field]
  dsimp only
  rw [if_neg changes, barred]
  exact raise_eq_raised ..

end Sys2Proof.Machine
end

section
/-! # The fields of the configuration block (09, R166, R167, R176; 07, R148) -/

namespace Sys2Proof.Machine

open Sys2Proof.Claims

/-- A write off the rings, with nothing of the host pages pending. -/
structure PlainHostWrite (addr : Word) (beats : List Beat) (s : State) : Prop where
  offered : Offered addr beats s
  none : s.lif.hostShadow = []
  off : OffTheRings s addr beats

/-- The state behind a write off the rings, before its bytes in the host pages act. -/
abbrev arrived (x : Fin 16) (addr : Word) (beats : List Beat) (s : State) : State :=
  caught x (forwarded (plainWrite x addr beats) s)

theorem PlainHostWrite.leads {x : Fin 16} {addr : Word} {beats : List Beat} {s t : State} {off : Nat} {v : Byte}
    (h : PlainHostWrite addr beats s) (written : writtenBytes addr.toNat beats = [(s.areaBase + off, v)])
    (block : off < 0x400) (field : fieldWidth off = some 1)
    (applies : applyConfig off v.toNat (arrived x addr beats s) = t) :
    exec (.ulinkWrite x addr beats) s = .next (settle t) :=
  exec_ulinkWrite_byte h.offered h.none written block field h.off.passes h.off.windows (fun _ => h.off.held) applies

section
variable {x : Fin 16} {addr : Word} {beats : List Beat} {s : State} {v : Byte} (h : PlainHostWrite addr beats s)
include h

/-- PASS_SHARE takes the nearest value of 1 to 15 (R167). -/
theorem passShare_clamped (written : writtenBytes addr.toNat beats = [(s.areaBase + 0x009, v)]) :
    exec (.ulinkWrite x addr beats) s = .next { arrived x addr beats s with
      ccu := { (arrived x addr beats s).ccu with cfg := { s.ccu.cfg with passShare := max 1 (min 15 v.toNat) } } } := by
  have applies : applyConfig 0x009 v.toNat (arrived x addr beats s) = { arrived x addr beats s with
      ccu := { (arrived x addr beats s).ccu with cfg := { s.ccu.cfg with passShare := max 1 (min 15 v.toNat) } } } := by
    by_cases same : max 1 (min 15 v.toNat) = s.ccu.cfg.passShare
    · rw [same]
      exact applyConfig_same (s := arrived x addr beats s) (v := v.toNat) (off := 0x009) (by decide) rfl
        (congrArg (fun n : Nat => (n : Int)) same)
    · exact applyConfig_applies (s := arrived x addr beats s) (v := v.toNat) (off := 0x009) (by decide) rfl
        (fun eq => same (Int.ofNat_inj.mp eq)) rfl
  rw [h.leads written (by decide) rfl applies]
  exact congrArg Host.Outcome.next (settle_idle _ h.offered.quiet)

/-- The bin count is locked while COVERAGE_EN is 1 (R167). -/
theorem binCount_locked (written : writtenBytes addr.toNat beats = [(s.areaBase + 0x046, v)])
    (on : s.ccu.cfg.coverageEn = true) : exec (.ulinkWrite x addr beats) s = .next
      (raised (if max 1 (min 64 v.toNat) = s.ccu.cfg.binCount then []
        else [event .ccu .configLocked .field 0x046 (max 1 (min 64 v.toNat) : Nat) s.ccu.cfg.binCount 2])
        (arrived x addr beats s)) := by
  have applies : applyConfig 0x046 v.toNat (arrived x addr beats s) =
      raised (if max 1 (min 64 v.toNat) = s.ccu.cfg.binCount then []
        else [event .ccu .configLocked .field 0x046 (max 1 (min 64 v.toNat) : Nat) s.ccu.cfg.binCount 2])
        (arrived x addr beats s) := by
    by_cases same : max 1 (min 64 v.toNat) = s.ccu.cfg.binCount
    · rw [if_pos same, raised_nil]
      exact applyConfig_same (s := arrived x addr beats s) (v := v.toNat) (off := 0x046) (by decide) rfl
        (congrArg (fun n : Nat => (n : Int)) same)
    · rw [if_neg same]
      exact applyConfig_locked (s := arrived x addr beats s) (v := v.toNat) (off := 0x046) (cause := .coverage) (by decide)
        rfl (fun eq => same (Int.ofNat_inj.mp eq)) (if_pos on)
  rw [h.leads written (by decide) rfl applies]
  exact congrArg Host.Outcome.next (settle_idle _ h.offered.quiet)

/-- The restart generation is locked but while SUSPENDED (R167). -/
theorem restartGen_locked (written : writtenBytes addr.toNat beats = [(s.areaBase + 0x001, v)])
    (changes : v.toNat ≠ s.ccu.cfg.restartGen) (part : s.ccu.part ≠ .suspended) :
    exec (.ulinkWrite x addr beats) s = .next
      (raised [event .ccu .configLocked .field 0x001 v.toNat s.ccu.cfg.restartGen 4] (arrived x addr beats s)) := by
  have clamped : clampNat 0 255 v.toNat = v.toNat := by
    have := v.isLt
    unfold clampNat
    omega
  have applies : applyConfig 0x001 v.toNat (arrived x addr beats s) =
      raised [event .ccu .configLocked .field 0x001 v.toNat s.ccu.cfg.restartGen 4] (arrived x addr beats s) := by
    have locked := applyConfig_locked (s := arrived x addr beats s) (v := v.toNat) (off := 0x001) (cause := .state) (by decide)
      rfl (fun eq => changes (clamped.symm.trans (Int.ofNat_inj.mp eq))) (if_neg part)
    rw [locked]
    change raised [event .ccu .configLocked .field 0x001 (clampNat 0 255 v.toNat) s.ccu.cfg.restartGen 4] _ = _
    rw [clamped]
  rw [h.leads written (by decide) rfl applies]
  exact congrArg Host.Outcome.next (settle_idle _ h.offered.quiet)

/-- A new restart generation restarts the jobs of a SUSPENDED part (R176). -/
theorem restartGen_restarts (written : writtenBytes addr.toNat beats = [(s.areaBase + 0x001, v)])
    (changes : v.toNat ≠ s.ccu.cfg.restartGen) (part : s.ccu.part = .suspended) :
    exec (.ulinkWrite x addr beats) s = .next (settle (jobRestart { arrived x addr beats s with
      ccu := { (arrived x addr beats s).ccu with cfg := { s.ccu.cfg with restartGen := v.toNat } } })) := by
  have clamped : clampNat 0 255 v.toNat = v.toNat := by
    have := v.isLt
    unfold clampNat
    omega
  refine h.leads written (by decide) rfl ?_
  have applies := applyConfig_applies (s := arrived x addr beats s) (v := v.toNat) (off := 0x001) (by decide) rfl
    (fun eq => changes (clamped.symm.trans (Int.ofNat_inj.mp eq))) (if_pos part)
  rw [applies]
  change jobRestart { arrived x addr beats s with ccu := { (arrived x addr beats s).ccu with
    cfg := { s.ccu.cfg with restartGen := ((clampNat 0 255 v.toNat : Nat) : Int).toNat } } } = _
  rw [clamped]
  rfl

end

/-! ## The job restart (R176) -/

/-- The jobs of a part at a restart. -/
def restarted (s : State) : State :=
  { s with
    tdr := .reset
    csv := Vector.replicate 32 .reset
    rfm := .reset
    cvm := restartCvm s.cvm
    rmn := restartRmn s.rmn
    lif := restartLif s.lif }

theorem settle_jobRestart {s : State} (quiet : s.lif.injWaiting = []) (room : s.lif.injQueue.length < Config.injectionDepth) :
    settle (jobRestart s) =
      injected (partEntry (partCode s.ccu.part) s.ccu.cfg.restartGen s.ccu.lastChange s) (restarted s) :=
  settle_partRecord (s := restarted s) s.ccu.part s.ccu.lastChange quiet room

theorem restarted_ring (r : Fin 16) (s : State) : (restarted s).ring r = restartRing (s.ring r) :=
  Vector.getElem_map restartRing r.isLt

theorem restarted_buffer (b : Fin 64) (s : State) : ((restarted s).buffer b).st = .free := by
  have freed : (restarted s).buffer b = { s.buffer b with st := .free } := Vector.getElem_map _ b.isLt
  rw [freed]

theorem restarted_tracker (k : Fin 8) (s : State) : ((restarted s).tracker k).st = .free := by
  have freed : (restarted s).tracker k = { s.tracker k with st := .free } := Vector.getElem_map _ k.isLt
  rw [freed]

theorem restarted_shadows (r : Fin 16) (s : State) :
    (restarted s).lif.prodShadow[r] = [] ∧ (restarted s).lif.consShadow[r] = [] :=
  ⟨Vector.getElem_replicate r.isLt, Vector.getElem_replicate r.isLt⟩

/-! ## COVERAGE_EN on (R148) -/

/-- Every bin of `l` has been evaluated, in its order: from `s` to `t`. -/
structure EvaluatedAll (l : List (Fin 64)) (s t : State) : Prop where
  frame : t = raised (l.flatMap fun b => evaluationEvents s b .enable) { s with cvm := { s.cvm with bins := t.cvm.bins } }
  done : ∀ b ∈ l, t.bin b = evaluatedRow s b
  others : ∀ b ∉ l, t.bin b = s.bin b

theorem evaluatedAll_foldl {l : List (Fin 64)} (nodup : l.Nodup) (s : State) :
    EvaluatedAll l s (l.foldl (fun s b => evalBin b .enable s) s) := by
  induction l using List.reverseRecOn with
  | nil => exact ⟨(raised_nil s).symm, nofun, fun _ _ => rfl⟩
  | append_singleton l b ih =>
    obtain ⟨first, -, apart⟩ := List.nodup_append.mp nodup
    have fresh : b ∉ l := fun mem => apart b mem b (List.mem_singleton_self b) rfl
    obtain ⟨frame, done, others⟩ := ih first
    rw [List.foldl_append, List.foldl_cons, List.foldl_nil, evalBin_raised]
    generalize l.foldl (fun s b => evalBin b .enable s) s = t at frame done others ⊢
    have row : t.bin b = s.bin b := others b fresh
    have same : evaluatedRow t b = evaluatedRow s b ∧ evaluationEvents t b .enable = evaluationEvents s b .enable := by
      have cfg : t.ccu.cfg = s.ccu.cfg := by rw [frame]; rfl
      have attach : t.tdr.attach = s.tdr.attach := by rw [frame]; rfl
      have rows : evaluatedRow t b = evaluatedRow s b := by
        unfold evaluatedRow
        rw [row, cfg, attach]
      exact ⟨rows, by rw [evaluationEvents, evaluationEvents, rows, row, cfg]⟩
    rw [same.1, same.2]
    refine ⟨?_, fun c mem => ?_, fun c absent => ?_⟩
    · rw [List.flatMap_append, List.flatMap_cons, List.flatMap_nil, List.append_nil, ← raised_raised]
      exact congrArg (raised _) (congrArg (withBin b (evaluatedRow s b)) frame)
    · rcases List.mem_append.mp mem with earlier | here
      · have other : c ≠ b := fun same => fresh (same ▸ earlier)
        exact (withBin_bin_ne _ t other).trans (done c earlier)
      · rw [List.mem_singleton.mp here]
        exact withBin_bin ..
    · rw [List.mem_append, not_or, List.mem_singleton] at absent
      exact (withBin_bin_ne _ t absent.2).trans (others c absent.1)

/-- COVERAGE_EN written on has every bin evaluated (R148). -/
theorem coverageEn_evaluates {x : Fin 16} {addr : Word} {beats : List Beat} {s : State} {v : Byte}
    (h : PlainHostWrite addr beats s) (written : writtenBytes addr.toNat beats = [(s.areaBase + 0x004, v)]) (on : v ≠ 0)
    (off : s.ccu.cfg.coverageEn = false) :
    let u : State := { arrived x addr beats s with
      ccu := { (arrived x addr beats s).ccu with cfg := { s.ccu.cfg with coverageEn := true } } }
    ∃ t, exec (.ulinkWrite x addr beats) s = .next t ∧ EvaluatedAll (List.finRange 64) u t := by
  intro u
  have nonzero : (v.toNat != 0) = true := by
    have : v.toNat ≠ 0 := fun zero => on (BitVec.eq_of_toNat_eq zero)
    simpa using this
  have all := evaluatedAll_foldl (List.nodup_finRange 64) u
  have clamped : ofBool (v.toNat != 0) = 1 := by rw [nonzero]; rfl
  have changes : ofBool (v.toNat != 0) ≠ ofBool s.ccu.cfg.coverageEn := by rw [clamped, off]; decide
  have applies : applyConfig 0x004 v.toNat (arrived x addr beats s) = evalAll u := by
    rw [applyConfig_applies (s := arrived x addr beats s) (v := v.toNat) (off := 0x004) (by decide) rfl changes rfl]
    change afterChange 4 { arrived x addr beats s with ccu := { (arrived x addr beats s).ccu with
      cfg := { s.ccu.cfg with coverageEn := ofBool (v.toNat != 0) != 0 } } } = _
    rw [clamped]
    rfl
  refine ⟨_, (h.leads written (by decide) rfl applies).trans (congrArg Host.Outcome.next (settle_idle _ ?_)), all⟩
  rw [evalAll, all.frame]
  exact h.offered.quiet

end Sys2Proof.Machine
end

section
/-! # The ring descriptors of the configuration block (R24 to R28, R167) -/

namespace Sys2Proof.Machine

open Sys2Proof.Claims

/-! ## The fields of a descriptor -/

section
variable (r : Fin 16) {o : Nat} (small : o < 32)
include small

theorem ringField_number : (0x200 + 32 * r.val + o - 0x200) % 32 = o ∧ (0x200 + 32 * r.val + o - 0x200) / 32 = r.val := by
  omega

theorem ringField_width : fieldWidth (0x200 + 32 * r.val + o) = ringWidth o := by
  have := r.isLt
  unfold fieldWidth
  rw [if_pos (by omega), (ringField_number r small).1]

theorem applyConfig_ring (v : Nat) (s : State) : applyConfig (0x200 + 32 * r.val + o) v s = applyRing r o v s := by
  have := r.isLt
  have number : Fin.ofNat 16 r.val = r := Fin.ext (Nat.mod_eq_of_lt r.isLt)
  unfold applyConfig
  rw [if_pos (by omega), (ringField_number r small).1, (ringField_number r small).2, number]

end

theorem PlainHostWrite.leads_ring {x : Fin 16} {addr : Word} {beats : List Beat} {s t : State} {r : Fin 16} {o : Nat} {v : Byte}
    (h : PlainHostWrite addr beats s) (written : writtenBytes addr.toNat beats = [(s.areaBase + (0x200 + 32 * r.val + o), v)])
    (small : o < 8) (applies : applyRing r o v.toNat (arrived x addr beats s) = t) :
    exec (.ulinkWrite x addr beats) s = .next (settle t) := by
  have := r.isLt
  have byte : ringWidth o = some 1 := if_pos (by omega)
  exact h.leads written (by omega) ((ringField_width r (by omega)).trans byte)
    ((applyConfig_ring r (by omega) v.toNat (arrived x addr beats s)).trans applies)

theorem toNat_injective {a b : Bool} (eq : a.toNat = b.toNat) : a = b := by
  revert eq
  cases a <;> cases b <;> decide

theorem byte_nonzero (v : Byte) : (v.toNat != 0) = (v != 0) := by
  by_cases zero : v = 0
  · rw [zero]
    rfl
  · exact (bne_iff_ne.mpr fun none => zero (BitVec.eq_of_toNat_eq none)).trans (bne_iff_ne.mpr zero).symm

/-- `s` with the enable of ring `r` set. -/
def enableSet (r : Fin 16) (on : Bool) (s : State) : State :=
  withRing r { s.ring r with desc := { (s.ring r).desc with enable := on } } s

theorem enableSet_ring (r : Fin 16) (on : Bool) (s : State) :
    (enableSet r on s).ring r = { s.ring r with desc := { (s.ring r).desc with enable := on } } :=
  withRing_ring ..

theorem withRing_enableSet (r : Fin 16) (on : Bool) (g : Ring) (s : State) : withRing r g (enableSet r on s) = withRing r g s :=
  withRing_withRing ..

/-- The enable of ring `r` takes the value of a byte. -/
theorem applyRing_enable {r : Fin 16} {v : Nat} {on : Bool} {s : State} (value : (v != 0) = on)
    (changes : (s.ring r).desc.enable ≠ on) :
    applyRing r 0 v s = if on then retestRing r (enableSet r on s) else enableOff r (enableSet r on s) := by
  subst value
  have differs : ringGet (ringPut (s.ring r).desc 0 v) 0 ≠ ringGet (s.ring r).desc 0 :=
    fun eq => changes (toNat_injective eq).symm
  unfold applyRing
  dsimp only
  rw [if_neg differs, if_neg (fun locked => absurd locked.2 (by decide)), onRing_eq rfl]
  by_cases on : (v != 0) = true
  · rw [if_pos on]
    exact if_neg fun off => absurd (on.symm.trans (Bool.not_eq_true' _ ▸ off.2)) (by decide)
  · rw [if_neg on]
    exact if_pos ⟨rfl, Bool.not_eq_true' _ ▸ Bool.not_eq_true _ ▸ on⟩

theorem enableOff_claims {r : Fin 16} {s : State} (state : (s.ring r).state = .enabling ∨ (s.ring r).state = .enabled) :
    enableOff r s = setRingState r .disabling s := by
  unfold enableOff
  rcases state with state | state <;> rw [state]

theorem setRingState_same {r : Fin 16} {st : RingState} {s : State} (same : (s.ring r).state = st) : setRingState r st s = s := by
  subst same
  exact (if_pos rfl).trans (withRing_self r s)

theorem retestRing_off {r : Fin 16} {s : State} (state : (s.ring r).state = .disabled) (off : (s.ring r).desc.enable = false) :
    retestRing r s = s := by
  unfold retestRing
  dsimp only
  rw [if_pos (.inl state), off, if_neg Bool.false_ne_true, setRingState_same state]

theorem retestRing_on {r : Fin 16} {s : State} (state : (s.ring r).state = .disabled) (on : (s.ring r).desc.enable = true) :
    retestRing r s = testRing r s := by
  unfold retestRing
  dsimp only
  rw [if_pos (.inl state), on, if_pos rfl]

/-- The tests of R24 look at the other claiming rings and at neither the enable nor the state of the ring. -/
theorem rejection_congr {r : Fin 16} {s t : State} (on : Bool)
    (own : (t.ring r).desc = { (s.ring r).desc with enable := on }) (others : ∀ q, q ≠ r → t.ring q = s.ring q)
    (area : t.areaBase = s.areaBase) : t.rejection r = s.rejection r := by
  have claims : t.otherClaims r = s.otherClaims r := by
    unfold State.otherClaims
    have same : ∀ q ∈ List.finRange 16, (q != r && (t.ring q).state.claims) = (q != r && (s.ring q).state.claims) := by
      intro q _
      by_cases here : q = r
      · rw [here, bne_self_eq_false, Bool.false_and, Bool.false_and]
      · rw [others q here]
    rw [List.filter_congr same]
    refine List.map_congr_left fun q mem => ?_
    have apart : q ≠ r := by
      have := (List.mem_filter.mp mem).2
      exact bne_iff_ne.mp (Bool.and_eq_true_iff.mp this).1
    rw [others q apart]
  unfold State.rejection
  dsimp only
  rw [own, claims, area]
  rfl

theorem rejection_enableSet (r : Fin 16) (on : Bool) (s : State) : (enableSet r on s).rejection r = s.rejection r :=
  rejection_congr on (congrArg Ring.desc (enableSet_ring ..)) (fun _ other => withRing_ring_ne _ s other) rfl

theorem testRing_rejects {r : Fin 16} {s : State} {why : RejectCause} (cause : s.rejection r = some why) :
    testRing r s = setRingState r .rejected (closeWindows r (withRing r { s.ring r with cause := some why } s)) := by
  unfold testRing
  rw [cause]
  rfl

theorem testRing_waits {r : Fin 16} {s : State} (valid : s.rejection r = none) (part : s.ccu.part ≠ .running) :
    testRing r s = setRingState r .disabled (closeWindows r s) := by
  unfold testRing
  rw [valid]
  exact if_neg fun running => part (of_decide_eq_true running)

/-- The windows of a ring with nothing pending are closed. -/
theorem closeWindows_closed {r : Fin 16} {s : State} (producer : s.lif.prodShadow[r] = []) (consumer : s.lif.consShadow[r] = []) :
    closeWindows r s = s := by
  have prod : upd s.lif.prodShadow r (fun _ => []) = s.lif.prodShadow :=
    (congrArg (fun w => s.lif.prodShadow.set r w) producer.symm).trans (Vector.set_getElem_self _)
  have cons : upd s.lif.consShadow r (fun _ => []) = s.lif.consShadow :=
    (congrArg (fun w => s.lif.consShadow.set r w) consumer.symm).trans (Vector.set_getElem_self _)
  unfold closeWindows
  rw [State.onLif, prod, cons]

theorem settle_setRingState_withRing {r : Fin 16} {g : Ring} {st : RingState} {s : State} (changes : g.state ≠ st)
    (quiet : s.lif.injWaiting = []) (room : s.lif.injQueue.length < Config.injectionDepth) :
    settle (setRingState r st (withRing r g s)) =
      withRing r { g with state := st } (injected (ringEntry r { g with state := st } s) s) := by
  rw [settle_setRingState (s := withRing r g s) (by rw [withRing_ring]; exact changes) quiet room, withRing_ring,
    withRing_withRing]
  rfl

/-- A DISABLED ring whose windows are closed, its enable on, its descriptor not valid. -/
theorem enabled_rejects {r : Fin 16} {s : State} {why : RejectCause} (cause : s.rejection r = some why)
    (state : (s.ring r).state = .disabled) (producer : s.lif.prodShadow[r] = []) (consumer : s.lif.consShadow[r] = []) :
    testRing r (enableSet r true s) = setRingState r .rejected (withRing r
      { s.ring r with desc := { (s.ring r).desc with enable := true }, state := .disabled, cause := some why } s) := by
  rw [testRing_rejects ((rejection_enableSet ..).trans cause), enableSet_ring, withRing_enableSet,
    closeWindows_closed (s := withRing r _ s) (by exact producer) (by exact consumer), ← state]

/-- A DISABLED ring whose windows are closed, its enable on, its descriptor valid. -/
theorem enabled_waits {r : Fin 16} {s : State} (valid : s.rejection r = none) (part : s.ccu.part ≠ .running)
    (state : (s.ring r).state = .disabled) (producer : s.lif.prodShadow[r] = []) (consumer : s.lif.consShadow[r] = []) :
    testRing r (enableSet r true s) = enableSet r true s := by
  rw [testRing_waits ((rejection_enableSet ..).trans valid) part,
    closeWindows_closed (s := enableSet r true s) (by exact producer) (by exact consumer),
    setRingState_same ((congrArg Ring.state (enableSet_ring r true s)).trans state)]

/-- The RECEIPTS byte of a claiming ring is locked (R167). -/
theorem applyRing_receipts_locked {r : Fin 16} {v : Nat} {s : State} (changes : (s.ring r).desc.receipts ≠ (v != 0))
    (claims : (s.ring r).state.claims = true) : applyRing r 3 v s =
      raised [event .ccu .configLocked .field (0x200 + 32 * r.val + 3 : Nat) (v != 0).toNat (s.ring r).desc.receipts.toNat 1]
        s := by
  have differs : ringGet (ringPut (s.ring r).desc 3 v) 3 ≠ ringGet (s.ring r).desc 3 :=
    fun eq => changes (toNat_injective eq).symm
  unfold applyRing
  dsimp only
  rw [if_neg differs, if_pos ⟨claims, rfl⟩]
  exact raise_eq_raised ..

/-- The RECEIPTS byte of a DISABLED ring is applied (R24). -/
theorem applyRing_receipts {r : Fin 16} {v : Nat} {s : State} (changes : (s.ring r).desc.receipts ≠ (v != 0))
    (state : (s.ring r).state = .disabled) (off : (s.ring r).desc.enable = false) : applyRing r 3 v s =
      withRing r { s.ring r with desc := { (s.ring r).desc with receipts := v != 0 } } s := by
  have differs : ringGet (ringPut (s.ring r).desc 3 v) 3 ≠ ringGet (s.ring r).desc 3 :=
    fun eq => changes (toNat_injective eq).symm
  have free : ¬((s.ring r).state.claims = true ∧ (!ringUnlocked 3) = true) := by
    rw [state]
    decide
  unfold applyRing
  dsimp only
  rw [if_neg differs, if_neg free, if_neg (fun zero => absurd zero.1 (by decide)), onRing_eq rfl]
  exact retestRing_off ((congrArg Ring.state (withRing_ring ..)).trans state)
    ((congrArg (fun g : Ring => g.desc.enable) (withRing_ring ..)).trans off)

section
variable {x : Fin 16} {addr : Word} {beats : List Beat} {s : State} {v : Byte} {r : Fin 16} (h : PlainHostWrite addr beats s)
include h

/-- The enable written off takes a ring that is ENABLING or ENABLED to DISABLING (R28). -/
theorem enable_off_disables (ready : Ready 1 s)
    (written : writtenBytes addr.toNat beats = [(s.areaBase + (0x200 + 32 * r.val), v)]) (zero : v = 0)
    (on : (s.ring r).desc.enable = true) (state : (s.ring r).state = .enabling ∨ (s.ring r).state = .enabled) :
    let g : Ring := { s.ring r with desc := { (s.ring r).desc with enable := false }, state := .disabling }
    exec (.ulinkWrite x addr beats) s = .next (withRing r g (injected (ringEntry r g s) (arrived x addr beats s))) := by
  intro g
  have value : (v.toNat != 0) = false := by rw [zero]; rfl
  have goes := applyRing_enable (s := arrived x addr beats s) (r := r) value (on.trans_ne (by decide))
  rw [if_neg Bool.false_ne_true, enableOff_claims (by rw [enableSet_ring]; exact state)] at goes
  have changes : (s.ring r).state ≠ .disabling := by
    rcases state with state | state
    · exact state.trans_ne (by decide)
    · exact state.trans_ne (by decide)
  exact (h.leads_ring (o := 0) written (by decide) goes).trans
    (congrArg Host.Outcome.next (settle_setRingState_withRing changes ready.quiet ready.room))

theorem receipts_locked (written : writtenBytes addr.toNat beats = [(s.areaBase + (0x203 + 32 * r.val), v)])
    (changes : (s.ring r).desc.receipts ≠ (v != 0)) (claims : (s.ring r).state.claims = true) :
    exec (.ulinkWrite x addr beats) s = .next (raised [event .ccu .configLocked .field (0x203 + 32 * r.val)
      (if v = 0 then 0 else 1) (if v = 0 then 1 else 0) 1] (arrived x addr beats s)) := by
  have place : 0x203 + 32 * r.val = 0x200 + 32 * r.val + 3 := by omega
  rw [place] at written
  have applies := applyRing_receipts_locked (s := arrived x addr beats s) (v := v.toNat) (byte_nonzero v ▸ changes) claims
  rw [h.leads_ring written (by decide) applies, settle_idle _ (by exact h.offered.quiet), byte_nonzero, place]
  have kept : (s.ring r).desc.receipts = !(v != 0) := Bool.eq_not_of_ne changes
  change Host.Outcome.next (raised [event .ccu .configLocked .field (0x200 + 32 * r.val + 3 : Nat) (v != 0).toNat
    (s.ring r).desc.receipts.toNat 1] _) = _
  rw [kept]
  by_cases zero : v = 0
  · rw [zero]
    rfl
  · rw [bne_iff_ne.mpr zero, if_neg zero, if_neg zero]
    rfl

theorem receipts_applied (written : writtenBytes addr.toNat beats = [(s.areaBase + (0x203 + 32 * r.val), v)])
    (changes : (s.ring r).desc.receipts ≠ (v != 0)) (state : (s.ring r).state = .disabled)
    (off : (s.ring r).desc.enable = false) : exec (.ulinkWrite x addr beats) s = .next
      (withRing r { s.ring r with desc := { (s.ring r).desc with receipts := v != 0 } } (arrived x addr beats s)) := by
  have place : 0x203 + 32 * r.val = 0x200 + 32 * r.val + 3 := by omega
  rw [place] at written
  have applies := applyRing_receipts (s := arrived x addr beats s) (v := v.toNat) (byte_nonzero v ▸ changes) state off
  rw [h.leads_ring written (by decide) applies, settle_idle _ (by exact h.offered.quiet), byte_nonzero]
  rfl

/-- The enable written on has the descriptor of a DISABLED ring tested (R24, R26). -/
theorem enable_on_tests (written : writtenBytes addr.toNat beats = [(s.areaBase + (0x200 + 32 * r.val), v)]) (on : v ≠ 0)
    (off : (s.ring r).desc.enable = false) (state : (s.ring r).state = .disabled) :
    exec (.ulinkWrite x addr beats) s = .next (settle (testRing r (enableSet r true (arrived x addr beats s)))) := by
  have value : (v.toNat != 0) = true := (byte_nonzero v).trans (bne_iff_ne.mpr on)
  have goes := applyRing_enable (s := arrived x addr beats s) (r := r) value (off.trans_ne (by decide))
  rw [if_pos rfl, retestRing_on (by rw [enableSet_ring]; exact state) (by rw [enableSet_ring])] at goes
  exact h.leads_ring (o := 0) written (by decide) goes

/-- A descriptor that is not valid is rejected. -/
theorem enable_on_rejects (ready : Ready 1 s)
    (written : writtenBytes addr.toNat beats = [(s.areaBase + (0x200 + 32 * r.val), v)]) (on : v ≠ 0)
    (off : (s.ring r).desc.enable = false) (state : (s.ring r).state = .disabled) (producer : s.lif.prodShadow[r] = [])
    (consumer : s.lif.consShadow[r] = []) {why : RejectCause} (cause : s.rejection r = some why) :
    let g : Ring := { s.ring r with desc := { (s.ring r).desc with enable := true }, state := .rejected, cause := some why }
    exec (.ulinkWrite x addr beats) s = .next (withRing r g (injected (ringEntry r g s) (arrived x addr beats s))) := by
  intro g
  have tested := enabled_rejects (s := arrived x addr beats s) cause state producer consumer
  exact (enable_on_tests h written on off state).trans (congrArg Host.Outcome.next ((congrArg settle tested).trans
    (settle_setRingState_withRing RingState.noConfusion ready.quiet ready.room)))

/-- A valid one waits in a part that is not RUNNING. -/
theorem enable_on_waits (written : writtenBytes addr.toNat beats = [(s.areaBase + (0x200 + 32 * r.val), v)]) (on : v ≠ 0)
    (off : (s.ring r).desc.enable = false) (state : (s.ring r).state = .disabled) (producer : s.lif.prodShadow[r] = [])
    (consumer : s.lif.consShadow[r] = []) (valid : s.rejection r = none) (part : s.ccu.part ≠ .running) :
    exec (.ulinkWrite x addr beats) s = .next (enableSet r true (arrived x addr beats s)) := by
  have tested := enabled_waits (s := arrived x addr beats s) valid part state producer consumer
  rw [enable_on_tests h written on off state, tested, settle_idle _ (by exact h.offered.quiet)]

end

end Sys2Proof.Machine
end

section
/-! # The command ring shadow (10, R178; 09, R166) -/

namespace Sys2Proof.Machine

open Sys2Proof.Claims

/-- The bytes `w` of record `n`, by area offset. -/
def inRecord (n : Fin 256) (w : List (Nat × Byte)) : List (Nat × Byte) :=
  w.map fun jb => (0x1000 + 64 * n.val + jb.1, jb.2)

theorem mem_inRecord {n : Fin 256} {w : List (Nat × Byte)} {ob : Nat × Byte} (inside : ∀ jb ∈ w, jb.1 < 64)
    (mem : ob ∈ inRecord n w) : ∃ j < 64, ob.1 = 0x1000 + 64 * n.val + j := by
  obtain ⟨jb, own, rfl⟩ := List.mem_map.mp mem
  exact ⟨jb.1, inside jb own, rfl⟩

theorem bytesIn_inRecord {n : Fin 256} {w : List (Nat × Byte)} (inside : ∀ jb ∈ w, jb.1 < 64) :
    bytesIn (0x1000 + 64 * n.val) 64 (inRecord n w) = w := by
  have moved := bytesIn_moved (lo := 0x1000 + 64 * n.val) (len := 64) (off := 0) (l := w) (by simpa using inside)
  simpa [inRecord] using moved

/-- A list of one value many times over holds it once. -/
theorem dedup_constant {l : List Nat} {a : Nat} (some : l ≠ []) (same : ∀ b ∈ l, b = a) : l.dedup = [a] := by
  rw [List.eq_replicate_of_mem same]
  exact List.replicate_dedup (mt List.length_eq_zero_iff.mp some)

/-- Bytes of one record reach that record alone. -/
theorem captureHost_record {x : Fin 16} {n : Fin 256} {w : List (Nat × Byte)} {s : State} (inside : ∀ jb ∈ w, jb.1 < 64)
    (some : w ≠ []) : captureHost x (w.map fun jb => (s.areaBase + (0x1000 + 64 * n.val) + jb.1, jb.2)) s =
      captureRecord (inRecord n w) (caught x s) n := by
  have inArea : bytesIn s.areaBase 0x6000 (w.map fun jb => (s.areaBase + (0x1000 + 64 * n.val) + jb.1, jb.2)) = inRecord n w :=
    bytesIn_moved fun jb mem => by
      have := inside jb mem
      omega
  have config : captureConfig (inRecord n w) (caught x s) = caught x s := captureConfig_beyond fun ob mem => by
    obtain ⟨j, -, place⟩ := mem_inRecord inside mem
    omega
  have numbers : (bytesIn 0x1000 0x4000 (inRecord n w)).map (fun ob => Fin.ofNat 256 (ob.1 / 64)) = w.map fun _ => n := by
    rw [show bytesIn 0x1000 0x4000 (inRecord n w) = w.map fun jb => (64 * n.val + jb.1, jb.2) from
      bytesIn_moved fun jb mem => by
        have := inside jb mem
        omega, List.map_map]
    refine List.map_congr_left fun jb mem => Fin.ext ?_
    have := inside jb mem
    have := n.isLt
    change (64 * n.val + jb.1) / 64 % 256 = n.val
    omega
  have commands : captureCommands (inRecord n w) (caught x s) = captureRecord (inRecord n w) (caught x s) n := by
    unfold captureCommands
    rw [numbers, List.map_const', List.replicate_dedup (mt List.length_eq_zero_iff.mp some)]
    rfl
  have indices (u : State) : captureIndices (inRecord n w) u = u := captureIndices_below fun ob mem => by
    obtain ⟨j, small, place⟩ := mem_inRecord inside mem
    omega
  unfold captureHost
  dsimp only
  rw [inArea, if_neg (show inRecord n w ≠ [] from mt List.map_eq_nil_iff.mp some)]
  change captureIndices _ (captureCommands _ (captureConfig _ (caught x s))) = _
  rw [config, commands, indices]

/-- A write off the rings of bytes of one record. -/
theorem exec_ulinkWrite_record {x : Fin 16} {addr : Word} {beats : List Beat} {s t : State} {n : Fin 256}
    {w : List (Nat × Byte)} (offered : Offered addr beats s) (off : OffTheRings s addr beats)
    (written : writtenBytes addr.toNat beats = w.map fun jb => (s.areaBase + (0x1000 + 64 * n.val) + jb.1, jb.2))
    (inside : ∀ jb ∈ w, jb.1 < 64) (some : w ≠ [])
    (arrives : captureRecord (inRecord n w) (arrived x addr beats s) n = t) (quiet : t.lif.injWaiting = []) :
    exec (.ulinkWrite x addr beats) s = .next t := by
  have own : ∀ ab ∈ writtenBytes addr.toNat beats, ¬InPartPage s ab.1 := by
    intro ab mem
    rw [written] at mem
    obtain ⟨jb, here, rfl⟩ := List.mem_map.mp mem
    have := inside jb here
    unfold InPartPage
    dsimp only
    omega
  have captures := captureHost_record (x := x) (n := n) (s := forwarded (plainWrite x addr beats) s) inside some
  rw [exec_ulinkWrite offered, ulinkWrite_offTheRings own off.passes off.windows fun _ => off.held, written]
  exact congrArg Host.Outcome.next ((congrArg settle (captures.trans arrives)).trans (settle_idle t quiet))

/-- `s` with record `n` of the command ring shadow replaced. -/
def withRecord (n : Fin 256) (q : Record) (s : State) : State :=
  { s with ccu := { s.ccu with commandRing := s.ccu.commandRing.set n q } }

theorem withRecord_record (n : Fin 256) (q : Record) (s : State) : (withRecord n q s).ccu.commandRing[n] = q :=
  Vector.getElem_set_self ..

theorem withRecord_withRecord (n : Fin 256) (q q' : Record) (s : State) :
    withRecord n q (withRecord n q' s) = withRecord n q s := by
  simp [withRecord]

theorem setIfInBounds_eq_set (q : Record) {i : Nat} (small : i < 64) (b : Byte) : q.setIfInBounds i b = q.set i b := by
  ext j
  rw [Vector.getElem_setIfInBounds, Vector.getElem_set]

theorem putRecord_eq (n : Fin 256) (o : Nat) (bs : List Byte) (s : State) : putRecord n o bs s =
    withRecord n (bs.zipIdx.foldl (fun q bj => q.setIfInBounds (o + bj.2) bj.1) s.ccu.commandRing[n]) s := rfl

/-- The code byte of a record takes effect at once. -/
theorem captureRecord_code {n : Fin 256} {v : Byte} {s : State} (none : s.lif.hostShadow = []) :
    captureRecord (inRecord n [(0, v)]) s n = withRecord n (s.ccu.commandRing[n].set 0 v) s := by
  have put (u : State) : putRecord n 0 [v] u = withRecord n (u.ccu.commandRing[n].set 0 v) u :=
    (putRecord_eq ..).trans (congrArg (fun q => withRecord n q u) (setIfInBounds_eq_set _ (Nat.zero_lt_succ 63) v))
  have field (k : CommandKind) : recordField k 0 = (0, 1) := by cases k <;> rfl
  have bytes : bytesIn (0x1000 + 64 * n.val) 64 (inRecord n [(0, v)]) = [(0, v)] := bytesIn_inRecord (by simp)
  have value : leBytes 1 v.toNat = [v] := by
    change [BitVec.ofNat 8 v.toNat] = _
    rw [BitVec.ofNat_toNat, BitVec.setWidth_eq]
  have again (u : State) (none : u.lif.hostShadow = []) :
      captureArgument n (inRecord n [(0, v)]) u 0 = putRecord n 0 [v] u := by
    unfold captureArgument
    dsimp only
    rw [field]
    dsimp only
    rw [show inRecord n [(0, v)] = [(0x1000 + 64 * n.val + 0, v)] from rfl, assembleHost_byte v none]
    dsimp only
    rw [value]
  have looked : List.lookup 0 [(0, v)] = some v := rfl
  unfold captureRecord
  dsimp only
  rw [bytes, looked]
  dsimp only
  rw [put, List.map_cons, List.map_nil, field, List.dedup_eq_self.mpr (List.nodup_singleton _), List.foldl_cons, List.foldl_nil]
  dsimp only
  rw [again (withRecord n _ s) none, put, withRecord_record, withRecord_withRecord, Vector.set_set]

/-! ## The tag of a record -/

/-- The bytes of a CLEAR_DOSE record's tag from `l` on, at their offsets in the record. -/
theorem captureRecord_tag {n : Fin 256} {l : List (Nat × Byte)} {s : State}
    (code : commandOf (rdLe s.ccu.commandRing[n] 0 1) = .clearDose) (inside : ∀ pb ∈ l, pb.1 < 4) (some : l ≠ []) :
    captureRecord (inRecord n (l.map fun pb => (8 + pb.1, pb.2))) s n =
      captureArgument n (inRecord n (l.map fun pb => (8 + pb.1, pb.2))) s 8 := by
  have within : ∀ jb ∈ l.map (fun pb => (8 + pb.1, pb.2)), jb.1 < 64 := by
    intro jb mem
    obtain ⟨pb, here, rfl⟩ := List.mem_map.mp mem
    have := inside pb here
    dsimp only
    omega
  have noCode : (l.map fun pb => (8 + pb.1, pb.2)).lookup 0 = none := by
    rw [List.lookup_eq_none_iff]
    intro jb mem
    obtain ⟨pb, -, rfl⟩ := List.mem_map.mp mem
    exact bne_iff_ne.mpr (by dsimp only; omega)
  have fields : ((l.map fun pb => (8 + pb.1, pb.2)).map fun ob => (recordField .clearDose ob.1).1).dedup = [8] := by
    refine dedup_constant (by simpa using some) fun b mem => ?_
    rw [List.map_map] at mem
    obtain ⟨pb, here, rfl⟩ := List.mem_map.mp mem
    have := inside pb here
    change (recordField .clearDose (8 + pb.1)).1 = 8
    obtain ⟨p, b⟩ := pb
    dsimp only at this ⊢
    interval_cases p <;> rfl
  unfold captureRecord
  dsimp only
  rw [bytesIn_inRecord within, noCode]
  dsimp only
  rw [code, fields, List.foldl_cons, List.foldl_nil]

theorem inRecord_tag (n : Fin 256) (l : List (Nat × Byte)) : inRecord n (l.map fun pb => (8 + pb.1, pb.2)) =
    l.map fun pb => (0x1008 + 64 * n.val + pb.1, pb.2) := by
  unfold inRecord
  rw [List.map_map]
  refine List.map_congr_left fun pb _ => Prod.ext ?_ rfl
  change 0x1000 + 64 * n.val + (8 + pb.1) = 0x1008 + 64 * n.val + pb.1
  omega

theorem tagPlace (n : Fin 256) : 0x1000 + 64 * n.val + 8 = 0x1008 + 64 * n.val := by omega

/-- The last bytes of the tag bring it (R6, R166). -/
theorem captureRecord_tag_last {n : Fin 256} {tag : Word} {k : Nat} {s : State} (bound : k < 4)
    (code : commandOf (rdLe s.ccu.commandRing[n] 0 1) = .clearDose)
    (pending : s.lif.hostShadow = (wordAt (0x1008 + 64 * n.val) tag).take k) :
    captureRecord (inRecord n (((wordBytes tag).drop k).map fun pb => (8 + pb.1, pb.2))) s n =
      putRecord n 8 (leBytes 4 tag.toNat) (hostPending [] s) := by
  rw [captureRecord_tag code (fun pb mem => wordBytes_position (List.mem_of_mem_drop mem)) (wordBytes_drop_ne_nil bound),
    inRecord_tag, ← wordAt_drop]
  unfold captureArgument
  dsimp only
  rw [code, show recordField .clearDose 8 = (8, 4) from rfl]
  dsimp only
  rw [tagPlace, assembleHost_last bound pending]

/-- The first bytes of a host-page word alone stay pending (R6). -/
theorem assembleHost_first {start k : Nat} {v : Word} {s : State} (some : 0 < k) (bound : k < 4)
    (none : s.lif.hostShadow = []) : assembleHost start 4 ((wordAt start v).take k) s =
      (hostPending ((wordAt start v).take k) s, Option.none) := by
  have stored : ((wordBytes v).take k).foldl (fun m pb => mapPut (start + pb.1) pb.2 m) [] = (wordAt start v).take k := by
    obtain ⟨b0, b1, b2, b3, bytes, -⟩ := wordBytes_eq v
    rw [wordAt_take, bytes]
    interval_cases k <;> simp [mapPut]
  unfold assembleHost
  dsimp only
  rw [bytesIn_wordAt_take, none, show bytesIn start 4 [] = [] from rfl, assemble_first some bound]
  dsimp only [List.filter_nil]
  rw [stored]
  rfl

/-- The first bytes of the tag alone stay pending (R6). -/
theorem captureRecord_tag_first {n : Fin 256} {tag : Word} {k : Nat} {s : State} (some : 0 < k) (bound : k < 4)
    (code : commandOf (rdLe s.ccu.commandRing[n] 0 1) = .clearDose) (none : s.lif.hostShadow = []) :
    captureRecord (inRecord n (((wordBytes tag).take k).map fun pb => (8 + pb.1, pb.2))) s n =
      hostPending ((wordAt (0x1008 + 64 * n.val) tag).take k) s := by
  rw [captureRecord_tag code (fun pb mem => wordBytes_position (List.mem_of_mem_take mem)) (wordBytes_take_ne_nil some),
    inRecord_tag, ← wordAt_take]
  unfold captureArgument
  dsimp only
  rw [code, show recordField .clearDose 8 = (8, 4) from rfl]
  dsimp only
  rw [tagPlace, assembleHost_first some bound none]

theorem putRecord_tag (n : Fin 256) (tag : Word) (s : State) : putRecord n 8 (leBytes 4 tag.toNat) s =
    withRecord n ((((s.ccu.commandRing[n].set 8 (BitVec.ofNat 8 (tag.toNat / 256 ^ 0))).set 9
      (BitVec.ofNat 8 (tag.toNat / 256 ^ 1))).set 10 (BitVec.ofNat 8 (tag.toNat / 256 ^ 2))).set 11
      (BitVec.ofNat 8 (tag.toNat / 256 ^ 3))) s := by
  have bytes : leBytes 4 tag.toNat = [BitVec.ofNat 8 (tag.toNat / 256 ^ 0), BitVec.ofNat 8 (tag.toNat / 256 ^ 1),
      BitVec.ofNat 8 (tag.toNat / 256 ^ 2), BitVec.ofNat 8 (tag.toNat / 256 ^ 3)] := by
    simp [leBytes, Nat.div_div_eq_div_mul]
  rw [putRecord_eq, bytes]
  simp [setIfInBounds_eq_set]

end Sys2Proof.Machine
end

section
/-! # The bytes of the host pages that act at once (O8) -/

namespace Sys2Proof.Machine

open Sys2Proof.Claims

/-! ## The tests of a descriptor (R24) -/

/-- Two byte ranges share a byte where their larger start lies below their smaller end. -/
theorem overlaps_eq (a b c d : Nat) : overlaps a b c d = decide (max a c < min b d) := by
  unfold overlaps
  rw [Bool.eq_iff_iff]
  simp only [Bool.and_eq_true, decide_eq_true_eq]
  omega

theorem rejection_eq (s : State) (r : Fin 16) : s.rejection r = causeOf s r := by
  have first (b : Bool) (c : RejectCause) (l : List (Bool × RejectCause)) :
      (((b, c) :: l).find? fun q => q.1).map (fun q => q.2) =
        if b then some c else (l.find? fun q => q.1).map fun q => q.2 := by
    cases b <;> rfl
  have size (n : Nat) : (n == 256 || n == 512 || n == 1024 || n == 2048) = [256, 512, 1024, 2048].contains n := by
    rw [Bool.eq_iff_iff]
    simp [or_assoc]
  have align (a b c : Nat) : (a ≠ 0 ∨ b ≠ 0 ∨ c ≠ 0) ↔ (a != 0 || b != 0 || c != 0) = true := by
    simp [or_assoc]
  have range (a b c d : Nat) : (b < a ∨ d < c) ↔ (decide (b < a) || decide (d < c)) = true := by
    simp
  unfold causeOf descriptorTests
  dsimp only
  rw [first, first, first, first, first, first, first, List.find?_nil]
  unfold State.rejection
  simp only [wordInRegion, overlaps_eq, size]
  exact if_congr Iff.rfl rfl (if_congr Iff.rfl rfl (if_congr (align ..) rfl (if_congr (range ..) rfl
    (if_congr Iff.rfl rfl (if_congr Iff.rfl rfl (if_congr Iff.rfl rfl rfl))))))

/-- What a job restart leaves of each block (R176; 01, 02, 03, 07). -/
theorem restartGen_leaves {x : Fin 16} {addr : Word} {beats : List Beat} {s : State} {v : Byte}
    (h : PlainHostWrite addr beats s) (ready : Ready 1 s)
    (written : writtenBytes addr.toNat beats = [(s.areaBase + 0x001, v)]) (changes : v.toNat ≠ s.ccu.cfg.restartGen)
    (part : s.ccu.part = .suspended) :
    ∃ t, exec (.ulinkWrite x addr beats) s = .next t ∧ SameBut true true true true true true false true false s t ∧
      t.ccu = { s.ccu with cfg := { s.ccu.cfg with restartGen := v.toNat }, capturedFrom := some x } ∧
      t.tdr = .reset ∧ t.csv = Vector.replicate 32 .reset ∧ t.rfm = .reset ∧
      t.cvm = { Cvm.reset with gen := s.cvm.gen } ∧
      (∀ r, t.ring r = { s.ring r with prod := 0, cons := 0, above := false, slotMap := [], resyncs := 0 }) ∧
      (∀ b, (t.buffer b).st = .free) ∧ t.rmn.exhausted = false ∧ t.rmn.dispatch = [] ∧
      (∀ k, (t.tracker k).st = .free) ∧ t.lif.forwardPath = (forwarded (plainWrite x addr beats) s).lif.forwardPath ∧
      (∀ r : Fin 16, t.lif.prodShadow[r] = [] ∧ t.lif.consShadow[r] = []) ∧
      t.lif.injQueue = s.lif.injQueue ++ [partEntry 4 v.toNat s.ccu.lastChange s] := by
  let w : State := { arrived x addr beats s with
    ccu := { (arrived x addr beats s).ccu with cfg := { s.ccu.cfg with restartGen := v.toNat } } }
  have code : partCode w.ccu.part = 4 := congrArg partCode part
  have leads := (restartGen_restarts (x := x) h written changes part).trans
    (congrArg Host.Outcome.next (settle_jobRestart (s := w) ready.quiet ready.room))
  rw [code] at leads
  exact ⟨_, leads, ⟨rfl, rfl, nofun, nofun, nofun, nofun, nofun, nofun, fun _ => rfl, nofun, fun _ => rfl⟩, rfl, rfl, rfl, rfl,
    rfl, fun r => restarted_ring r w, fun b => restarted_buffer b w, rfl, rfl, fun k => restarted_tracker k w, rfl,
    fun r => restarted_shadows r w, rfl⟩

/-- An evaluation does not look at COVERAGE_EN. -/
theorem evaluated_coverageEn {c : Cfg} (on : Bool) {attach : Vector Nat 16} {b : Fin 64} {cause : Nat} {old new : Bin}
    {events : List EventReq} (h : Evaluated { c with coverageEn := on } attach b cause old new events) :
    Evaluated c attach b cause old new events :=
  ⟨h.hole, h.none, h.best, h.raised⟩

/-- What COVERAGE_EN written on leaves: every bin evaluated, and nothing else (R148). -/
theorem coverageEn_leaves {x : Fin 16} {addr : Word} {beats : List Beat} {s : State} {v : Byte}
    (h : PlainHostWrite addr beats s) (written : writtenBytes addr.toNat beats = [(s.areaBase + 0x004, v)]) (on : v ≠ 0)
    (off : s.ccu.cfg.coverageEn = false) :
    ∃ (t : State) (events : Fin 64 → List EventReq), exec (.ulinkWrite x addr beats) s = .next t ∧
      SameBut true false false false false true false true true s t ∧
      t.lif = (forwarded (plainWrite x addr beats) s).lif ∧
      t.ccu = { s.ccu with cfg := { s.ccu.cfg with coverageEn := true }, capturedFrom := some x } ∧
      t.cvm = { s.cvm with bins := t.cvm.bins } ∧
      (∀ b, (t.bin b).cells = (s.bin b).cells ∧
        Evaluated s.ccu.cfg s.tdr.attach b 5 (s.bin b) (t.bin b) (events b)) ∧
      t.rpw = { s.rpw with events := s.rpw.events ++ (List.finRange 64).flatMap events } := by
  obtain ⟨t, leads, frame, done, -⟩ := coverageEn_evaluates (x := x) h written on off
  let u : State := { arrived x addr beats s with
    ccu := { (arrived x addr beats s).ccu with cfg := { s.ccu.cfg with coverageEn := true } } }
  refine ⟨t, fun b => evaluationEvents u b .enable, leads, ?_, ?_, ?_, ?_, fun b => ?_, ?_⟩
  · rw [frame]
    exact ⟨rfl, rfl, nofun, fun _ => rfl, fun _ => rfl, fun _ => rfl, fun _ => rfl, nofun, fun _ => rfl, nofun, nofun⟩
  · rw [frame]
    rfl
  · rw [frame]
    rfl
  · rw [frame]
    rfl
  · rw [done b (List.mem_finRange b)]
    exact ⟨rfl, evaluated_coverageEn (c := s.ccu.cfg) true (evaluated_evaluatedRow (s := u) (b := b) .enable rfl rfl)⟩
  · rw [frame]
    rfl

theorem withRecord_own (n : Fin 256) (s : State) : withRecord n s.ccu.commandRing[n] s = s := by
  simp [withRecord]

/-- The code byte of a command record reaches the command ring shadow (R166). -/
theorem codeByte_arrives {x : Fin 16} {addr : Word} {beats : List Beat} {s : State} {n : Fin 256} {v : Byte}
    (offered : Offered addr beats s) (none : s.lif.hostShadow = []) (off : OffTheRings s addr beats)
    (written : writtenBytes addr.toNat beats = [(s.areaBase + (0x1000 + 64 * n.val), v)]) :
    exec (.ulinkWrite x addr beats) s =
      .next (withRecord n (s.ccu.commandRing[n].set 0 v) (arrived x addr beats s)) := by
  have inside : ∀ jb ∈ [((0 : Nat), v)], jb.1 < 64 := by simp
  have arrives := captureRecord_code (n := n) (v := v) (s := arrived x addr beats s) none
  have quiet : (withRecord n ((arrived x addr beats s).ccu.commandRing[n].set 0 v)
    (arrived x addr beats s)).lif.injWaiting = [] := offered.quiet
  have moved : writtenBytes addr.toNat beats =
      [((0 : Nat), v)].map fun jb => (s.areaBase + (0x1000 + 64 * n.val) + jb.1, jb.2) := by
    rw [written, List.map_cons, List.map_nil, Nat.add_zero]
  exact exec_ulinkWrite_record offered off moved inside (List.cons_ne_nil _ _) arrives quiet

/-- Settles O8: the bytes of the configuration block, of the ring descriptors and of the command records. -/
theorem configurationByteIsClampedAndLocked : Obligations.ConfigurationByteIsClampedAndLocked := by
  constructor
  · intro x addr beats s v offered none off u
    have h : PlainHostWrite addr beats s := ⟨offered, none, off⟩
    refine ⟨fun written => passShare_clamped h written, fun written on => binCount_locked h written on,
      fun written changes => ⟨restartGen_locked h written changes, fun part ready =>
        restartGen_leaves h ready written changes part⟩,
      fun written on off => coverageEn_leaves h written on off, fun n written => ?_,
      fun r ready written zero on state => enable_off_disables h ready written zero on state,
      fun r written changes => ⟨fun state => receipts_locked h written changes ?_, fun state off =>
        receipts_applied h written changes state off⟩,
      fun r ready written on off state producer consumer => ⟨fun why cause => ?_, fun valid part => ?_⟩⟩
    · exact codeByte_arrives offered none off written
    · rcases state with state | state | state <;> rw [state] <;> rfl
    · exact enable_on_rejects h ready written on off state producer consumer ((rejection_eq s r).trans cause)
    · exact enable_on_waits h written on off state producer consumer ((rejection_eq s r).trans valid) part
  · intro x addr beats s n tag k offered off bound code at' u kept q byte
    have place : s.areaBase + at' = s.areaBase + (0x1000 + 64 * n.val) + 8 := by omega
    have bytes (l : List (Nat × Byte)) : (l.map fun pb => (s.areaBase + at' + pb.1, pb.2)) =
        (l.map fun pb => (8 + pb.1, pb.2)).map fun jb => (s.areaBase + (0x1000 + 64 * n.val) + jb.1, jb.2) := by
      rw [List.map_map, place]
      exact List.map_congr_left fun pb _ => Prod.ext (Nat.add_assoc ..) rfl
    have inside {l : List (Nat × Byte)} (word : ∀ pb ∈ l, pb.1 < 4) : ∀ jb ∈ l.map fun pb => (8 + pb.1, pb.2), jb.1 < 64 := by
      intro jb mem
      obtain ⟨pb, here, rfl⟩ := List.mem_map.mp mem
      have := word pb here
      dsimp only
      omega
    refine ⟨fun written pending => ?_, fun some written none => ?_⟩
    · have leads := exec_ulinkWrite_record (x := x) (t := putRecord n 8 (leBytes 4 tag.toNat) (hostPending [] u)) offered off
        (written.trans ((wordAt_drop ..).trans (bytes _)))
        (inside fun pb mem => wordBytes_position (List.mem_of_mem_drop mem))
        (mt List.map_eq_nil_iff.mp (wordBytes_drop_ne_nil bound)) (captureRecord_tag_last (s := u) bound code pending)
        offered.quiet
      exact leads.trans (congrArg Host.Outcome.next (putRecord_tag n tag (hostPending [] u)))
    · have leads := exec_ulinkWrite_record (x := x) offered off (written.trans ((wordAt_take ..).trans (bytes _)))
        (inside fun pb mem => wordBytes_position (List.mem_of_mem_take mem))
        (mt List.map_eq_nil_iff.mp (wordBytes_take_ne_nil some)) (captureRecord_tag_first (s := u) some bound code none)
        offered.quiet
      exact leads.trans (congrArg Host.Outcome.next (withRecord_own n (hostPending ((wordAt at' tag).take k) u)).symm)

end Sys2Proof.Machine
end

section
/-! # The RUN byte (09, R170 to R175; 02, R26, R27; 04, R85) -/

namespace Sys2Proof.Machine

open Sys2Proof.Claims

/-! ## The write -/

/-- `s` with RUN set. -/
def runSet (on : Bool) (s : State) : State := { s with ccu := { s.ccu with cfg := { s.ccu.cfg with run := on } } }

theorem applyConfig_run {v : Byte} {on : Bool} {s : State} (value : (v != 0) = on) (changes : s.ccu.cfg.run ≠ on) :
    applyConfig 0 v.toNat s = runChanged (runSet on s) := by
  have differs : ofBool (v.toNat != 0) ≠ ofBool s.ccu.cfg.run := by
    rw [byte_nonzero, value]
    revert changes
    cases s.ccu.cfg.run <;> cases on <;> decide
  have back : (ofBool on != 0) = on := by cases on <;> rfl
  rw [applyConfig_applies (s := s) (v := v.toNat) (off := 0) (by decide) rfl differs rfl]
  change runChanged (runSet (ofBool (v.toNat != 0) != 0) s) = _
  rw [byte_nonzero, value, back]

/-- No ring's windows are active in a part that is neither RUNNING nor SUSPENDING (R3). -/
theorem not_active {s : State} (run : s.ccu.part ≠ .running) (suspending : s.ccu.part ≠ .suspending) (r : Fin 16) :
    ¬Active s r :=
  fun active => active.2.elim run suspending

theorem not_working {s : State} (run : s.ccu.part ≠ .running) (suspending : s.ccu.part ≠ .suspending) : s.working = false := by
  unfold State.working
  simp [run, suspending]

/-- A write of RUN, off the rings or in a part at rest. -/
theorem exec_ulinkWrite_run {x : Fin 16} {addr : Word} {beats : List Beat} {s : State} {v : Byte} {on : Bool}
    (offered : Offered addr beats s) (none : s.lif.hostShadow = [])
    (written : writtenBytes addr.toNat beats = [(s.areaBase, v)])
    (rings : OffTheRings s addr beats ∨ s.ccu.part ≠ .running ∧ s.ccu.part ≠ .suspending) (value : (v != 0) = on)
    (changes : s.ccu.cfg.run ≠ on) :
    exec (.ulinkWrite x addr beats) s = .next (settle (runChanged (runSet on (arrived x addr beats s)))) := by
  have applies := applyConfig_run (s := arrived x addr beats s) value changes
  have place : writtenBytes addr.toNat beats = [(s.areaBase + 0, v)] := by rw [written, Nat.add_zero]
  rcases rings with off | ⟨run, suspending⟩
  · exact exec_ulinkWrite_byte (off := 0) offered none place (by decide) rfl off.passes off.windows (fun _ => off.held) applies
  · have idle := not_active run suspending
    exact exec_ulinkWrite_byte (off := 0) offered none place (by decide) rfl (fun r active => absurd active (idle r))
      (fun r active => absurd active (idle r))
      (fun working => absurd (working.symm.trans (not_working run suspending)) (by decide)) applies

/-! ## DORMANT to INITIALISING (R170, R171) -/

/-- The requests of the entry to INITIALISING. -/
def initAsks (t : Word64) : List (Block × InjOp) :=
  [(.ccu, .partRecord .initialising t), (.ccu, .initRead 0), (.ccu, .initRead 1), (.ccu, .initRead 2)]

theorem runChanged_dormant {s : State} (part : s.ccu.part = .dormant) :
    runChanged (runSet true s) = asks (initAsks s.site) (changed .initialising .runOn (runSet true s)) := by
  have same : (runSet true s).ccu.part = .dormant := part
  have on : (runSet true s).ccu.cfg.run = true := rfl
  unfold runChanged
  rw [same, on]
  rfl

theorem joinsAlone_partRecord (part : PartState) (t : Word64) : JoinsAlone (.partRecord part t) := fun _ _ _ => rfl

theorem joinsAlone_initRead (k : Fin 3) : JoinsAlone (.initRead k) := fun _ _ _ => rfl

theorem joinsAlone_initAsks (t : Word64) : ∀ w ∈ initAsks t, JoinsAlone w.2 := by
  simp [initAsks, joinsAlone_partRecord, joinsAlone_initRead]

/-- The read of index word `k` (R171). -/
def indexRead (k : Fin 3) (s : State) : InjEntry := readEntry .ccu (s.areaBase + 0x5000 + 4 * k.val) (.initRead k)

/-- The index words lie in one beat. -/
theorem indexRead_addr (k : Fin 3) (s : State) : (indexRead k s).addr = BitVec.ofNat 32 (s.areaBase + 0x5000) := by
  have page : s.areaBase = s.pins.caSel.toNat * 2 ^ 24 := rfl
  have beat : (s.areaBase + 0x5000 + 4 * k.val) / 16 * 16 = s.areaBase + 0x5000 := by
    have := k.isLt
    omega
  exact congrArg (BitVec.ofNat 32) beat

theorem joins_initAsks (t : Word64) (s : State) : joins (initAsks t) s =
    injectedAll [partEntry 1 s.ccu.cfg.restartGen t s, indexRead 0 s, indexRead 1 s, indexRead 2 s] s := by
  have part (u : State) : joinOp .ccu (.partRecord .initialising t) u = injected (partEntry 1 u.ccu.cfg.restartGen t u) u := rfl
  have read (k : Fin 3) (u : State) : joinOp .ccu (.initRead k) u = injected (indexRead k u) u := rfl
  have place (k : Fin 3) (e : InjEntry) (u : State) : indexRead k (injected e u) = indexRead k u := rfl
  change joinOp .ccu (.initRead 2) (joinOp .ccu (.initRead 1) (joinOp .ccu (.initRead 0)
    (joinOp .ccu (.partRecord .initialising t) s))) = _
  rw [part, read, read, read, place, place, place, place, place, place]
  simp [injected, injectedAll]

/-- The part goes to INITIALISING with its record and the three index reads. -/
theorem run_initialises {x : Fin 16} {addr : Word} {beats : List Beat} {s : State} {v : Byte} (offered : Offered addr beats s)
    (none : s.lif.hostShadow = []) (written : writtenBytes addr.toNat beats = [(s.areaBase, v)]) (ready : Ready 4 s)
    (value : (v != 0) = true) (part : s.ccu.part = .dormant) (off : s.ccu.cfg.run = false) :
    let u := changed .initialising .runOn (runSet true (arrived x addr beats s))
    exec (.ulinkWrite x addr beats) s = .next
      (injectedAll [partEntry 1 u.ccu.cfg.restartGen s.site u, indexRead 0 u, indexRead 1 u, indexRead 2 u] u) := by
  intro u
  have rest : s.ccu.part ≠ .running ∧ s.ccu.part ≠ .suspending := by
    rw [part]
    exact ⟨PartState.noConfusion, PartState.noConfusion⟩
  have changes : runChanged (runSet true (arrived x addr beats s)) = asks (initAsks s.site) u :=
    runChanged_dormant (s := arrived x addr beats s) part
  have joined := settle_asks (initAsks s.site) u (joinsAlone_initAsks _) ready.quiet ready.room
  rw [exec_ulinkWrite_run offered none written (.inr rest) value (off.trans_ne (by decide)), changes, joined.1, joins_initAsks]

/-! ## RUNNING to SUSPENDING (R173) -/

theorem runChanged_running {s : State} (part : s.ccu.part = .running) (snap : s.cvm.snapRunning = false)
    (slots : ∀ r, (s.slot r).status = .holding → (s.ring r).commit ≠ none ∧ (s.ring r).state ≠ .enabling) :
    runChanged (runSet false s) = changePart .suspending .runOff (runSet false s) := by
  have same : (runSet false s).ccu.part = .running := part
  have off : (runSet false s).ccu.cfg.run = false := rfl
  have stays (r : Fin 16) : suspendSlot r (changePart .suspending .runOff (runSet false s)) =
      changePart .suspending .runOff (runSet false s) := by
    refine if_neg fun ⟨holding, free⟩ => ?_
    obtain ⟨commit, state⟩ := slots r holding
    exact free.elim commit state
  unfold runChanged
  rw [same, off]
  change abortSnapshot ((List.finRange 16).foldl (fun s r => suspendSlot r s) (changePart .suspending .runOff (runSet false s))) = _
  rw [foldl_same fun r _ => stays r]
  exact if_neg (ne_true_of_eq_false snap)

end Sys2Proof.Machine
end

section
/-! # SUSPENDED to RUNNING (09, R172; 02, R26, R27; 04, R85) -/

namespace Sys2Proof.Machine

open Sys2Proof.Claims

/-! ## The admission of one ring (R26, R27) -/

/-- The runtime record of a ring that enters ENABLING, its state still to be taken. -/
def enablingRecord (g : Ring) : Ring :=
  { g with
    gen := g.gen + 1, commit := none, outstanding := 0, keptC := none, baseP := none, baseC := none, slotMap := []
    desc := clampMarks g.desc }

/-- `s` with what is left of ring `r` cleared (R27). -/
def readied (r : Fin 16) (s : State) : State :=
  closeWindows r (withRing r { enablingRecord (s.ring r) with state := .enabling }
    (clearSlots r (s.onRmn fun m => { m with paused := m.paused.filter fun q => q != r })))

/-- The requests of a ring that enters ENABLING behind the part record of the change that admits it. -/
def admissionAsks (r : Fin 16) (part : PartState) (t : Word64) (gen : Nat) : List (Block × InjOp) :=
  [(.ccu, .partRecord part t), (.rmn, .ringRecord r), (.rmn, .baselineRead r gen false), (.rmn, .baselineRead r gen true)]

/-- A slot in progress given up leaves the part record that waits. -/
theorem dropSlotInProgress_partRecord (r : Fin 16) {part : PartState} {t : Word64} {s : State} (quiet : s.lif.injWaiting = []) :
    dropSlotInProgress r (s.ask .ccu (.partRecord part t)) =
      (s.onRmn fun m => { m with paused := m.paused.filter fun q => q != r }).ask .ccu (.partRecord part t) := by
  simp [dropSlotInProgress, State.ask, State.onRmn, State.onLif, quiet]

theorem clearSlots_ask (r : Fin 16) (b : Block) (op : InjOp) (s : State) :
    clearSlots r (s.ask b op) = (clearSlots r s).ask b op := rfl

theorem onRing_ask (r : Fin 16) (f : Ring → Ring) (b : Block) (op : InjOp) (s : State) :
    (s.ask b op).onRing r f = (s.onRing r f).ask b op := rfl

theorem setRingState_ask {r : Fin 16} {st : RingState} (b : Block) (op : InjOp) {s : State} (changes : (s.ring r).state ≠ st) :
    setRingState r st (s.ask b op) =
      ((withRing r { s.ring r with state := st } s).ask b op).ask .rmn (.ringRecord r) := by
  have differs : ¬((s.ask b op).ring r).state = st := changes
  exact (if_neg differs).trans (congrArg (fun v => State.ask v .rmn (.ringRecord r)) (onRing_ask ..))

theorem closeWindows_withRing (r q : Fin 16) (g : Ring) (s : State) :
    closeWindows r (withRing q g s) = withRing q g (closeWindows r s) := rfl

theorem enterEnabling_behind (r : Fin 16) {part : PartState} {t : Word64} {s : State} (quiet : s.lif.injWaiting = [])
    (state : (s.ring r).state ≠ .enabling) :
    enterEnabling r (s.ask .ccu (.partRecord part t)) =
      asks (admissionAsks r part t ((s.ring r).gen + 1)) (readied r s) := by
  let a := clearSlots r (s.onRmn fun m => { m with paused := m.paused.filter fun q => q != r })
  have cleared : a.ring r = { s.ring r with slotMap := [] } := clearSlots_ring ..
  let w := closeWindows r (withRing r (enablingRecord (s.ring r)) a)
  have own : w.ring r = enablingRecord (s.ring r) := withRing_ring ..
  have ready : ((clearSlots r (dropSlotInProgress r (s.ask .ccu (.partRecord part t)))).onRing r fun g =>
      { g with
        gen := g.gen + 1, commit := none, outstanding := 0, keptC := none, baseP := none, baseC := none
        desc := clampMarks g.desc }) = (withRing r (enablingRecord (s.ring r)) a).ask .ccu (.partRecord part t) := by
    rw [dropSlotInProgress_partRecord r quiet, clearSlots_ask, onRing_ask, onRing_eq cleared]
    rfl
  have final : withRing r { w.ring r with state := .enabling } w = readied r s := by
    rw [own]
    exact (closeWindows_withRing ..).symm.trans (congrArg (closeWindows r) (withRing_withRing ..))
  have sets : setRingState r .enabling (w.ask .ccu (.partRecord part t)) =
      ((readied r s).ask .ccu (.partRecord part t)).ask .rmn (.ringRecord r) := by
    rw [setRingState_ask _ _ (by rw [own]; exact state), final]
  have number : ((w.ask .ccu (.partRecord part t)).ring r).gen = (s.ring r).gen + 1 := congrArg Ring.gen own
  unfold enterEnabling
  dsimp only
  rw [ready]
  change ((setRingState r .enabling (w.ask .ccu (.partRecord part t))).ask .rmn
    (.baselineRead r ((w.ask .ccu (.partRecord part t)).ring r).gen false)).ask .rmn
    (.baselineRead r ((w.ask .ccu (.partRecord part t)).ring r).gen true) = _
  rw [number, sets]
  rfl

/-! ## What the admission leaves -/

theorem readied_ring (r : Fin 16) (s : State) :
    (readied r s).ring r = { enablingRecord (s.ring r) with state := .enabling } := withRing_ring ..

theorem readied_ring_ne {r q : Fin 16} (s : State) (other : q ≠ r) : (readied r s).ring q = s.ring q :=
  (withRing_ring_ne _ _ other).trans (clearSlots_ring_ne _ other)

theorem readied_buffer (r : Fin 16) (s : State) (b : Fin 64) (sl : Nat) (j : Word) :
    ((readied r s).buffer b).st ≠ .filling r sl j := clearSlots_buffer r _ b sl j

theorem readied_same (r : Fin 16) (s : State) : SameBut true true false false false false false false false s (readied r s) := by
  simp [SameBut, readied, closeWindows, withRing, clearSlots, setMidway, freeRingTrackers, freeRingBuffers]

theorem asks_ring (l : List (Block × InjOp)) (s : State) (q : Fin 16) : (asks l s).ring q = s.ring q := by
  rw [asks_eq]
  rfl

theorem changed_ring (new : PartState) (cause : ChangeCause) (s : State) (q : Fin 16) :
    (changed new cause s).ring q = s.ring q := rfl

theorem clearSlots_lif (r : Fin 16) (s : State) : (clearSlots r s).lif = s.lif := rfl

theorem readied_lif (r : Fin 16) (s : State) : (readied r s).lif =
    { s.lif with
      prodShadow := upd s.lif.prodShadow r fun _ => []
      consShadow := upd s.lif.consShadow r fun _ => [] } := by
  simp [readied, closeWindows, withRing, clearSlots_lif]

/-! ## The entry to RUNNING (R172) -/

/-- The cranes of `s` supervised afresh (R85). -/
def supervised (s : State) : State := { s with csv := s.csv.map (resumeCrane s.now) }

/-- One ring asks for admission, no drain start is kept and no restart of the sweep is due. -/
structure AdmitsOne (r : Fin 16) (s : State) : Prop where
  quiet : s.lif.injWaiting = []
  asks : (s.ring r).state = .enabled ∨
    (s.ring r).desc.enable = true ∧ ((s.ring r).state = .disabled ∨ (s.ring r).state = .rejected)
  valid : s.rejection r = none
  others : ∀ q, q ≠ r → (s.ring q).state = .disabled ∧ (s.ring q).desc.enable = false
  restart : s.tbs.restart = false
  drain : s.rfm.startKept = false

theorem admitRing_off {q : Fin 16} {s : State} (disabled : (s.ring q).state = .disabled) (off : (s.ring q).desc.enable = false) :
    admitRing q s = s := by
  unfold admitRing
  dsimp only
  rw [disabled, off]
  rfl

theorem admitRing_tests {r : Fin 16} {s : State} (asks : (s.ring r).state = .enabled ∨
    (s.ring r).desc.enable = true ∧ ((s.ring r).state = .disabled ∨ (s.ring r).state = .rejected)) :
    admitRing r s = testRing r s := by
  unfold admitRing
  dsimp only
  rcases asks with state | ⟨on, state | state⟩
  · rw [state]
  · rw [state, on]
    rfl
  · rw [state, on]
    rfl

/-- The ring that asks enters ENABLING, behind the part record. -/
theorem admitRings_one {r : Fin 16} {s : State} (cause : ChangeCause) (h : AdmitsOne r s) :
    admitRings (changePart .running cause s) = asks (admissionAsks r .running s.site ((s.ring r).gen + 1))
      (readied r (changed .running cause s)) := by
  let w := changePart .running cause s
  have notYet : (s.ring r).state ≠ .enabling := by
    rcases h.asks with state | ⟨-, state | state⟩ <;> rw [state] <;> exact RingState.noConfusion
  have valid : w.rejection r = none :=
    (rejection_congr (s := s) (t := w) (s.ring r).desc.enable rfl (fun _ _ => rfl) rfl).trans h.valid
  have acts : admitRing r w = asks (admissionAsks r .running s.site ((s.ring r).gen + 1))
      (readied r (changed .running cause s)) := by
    have tests : testRing r w = enterEnabling r w := by
      unfold testRing
      rw [valid]
      rfl
    rw [admitRing_tests (s := w) h.asks, tests]
    exact enterEnabling_behind (s := changed .running cause s) r h.quiet notYet
  have before (q : Fin 16) (other : q ≠ r) : admitRing q w = w :=
    admitRing_off (s := w) (h.others q other).1 (h.others q other).2
  have after (q : Fin 16) (other : q ≠ r) : admitRing q (asks (admissionAsks r .running s.site ((s.ring r).gen + 1))
      (readied r (changed .running cause s))) = asks (admissionAsks r .running s.site ((s.ring r).gen + 1))
      (readied r (changed .running cause s)) := by
    have same := (asks_ring (admissionAsks r .running s.site ((s.ring r).gen + 1)) (readied r (changed .running cause s)) q).trans
      ((readied_ring_ne (changed .running cause s) other).trans (changed_ring .running cause s q))
    refine admitRing_off ?_ ?_
    · rw [same]
      exact (h.others q other).1
    · rw [same]
      exact (h.others q other).2
  exact foldl_only (List.nodup_finRange 16) (List.mem_finRange r) acts before after

theorem enterRunning_one {r : Fin 16} {s : State} (cause : ChangeCause) (h : AdmitsOne r s) :
    enterRunning cause s = asks (admissionAsks r .running s.site ((s.ring r).gen + 1))
      (supervised (readied r (changed .running cause s))) := by
  have sweeps (u : State) (restart : u.tbs.restart = false) : resumeSweep u = u :=
    if_neg fun due => Bool.false_ne_true (restart.symm.trans due.2)
  have drains (u : State) (kept : u.rfm.startKept = false) : resumeDrain u = u := if_neg (ne_true_of_eq_false kept)
  unfold enterRunning
  dsimp only
  rw [admitRings_one cause h]
  change resumeDrain (resumeSweep (asks (admissionAsks r .running s.site ((s.ring r).gen + 1))
    (supervised (readied r (changed .running cause s))))) = _
  rw [sweeps _ (by exact h.restart), drains _ (by exact h.drain)]

/-! ## The requests of the admission -/

theorem joinsAlone_admissionAsks (r : Fin 16) (part : PartState) (t : Word64) (gen : Nat) :
    ∀ w ∈ admissionAsks r part t gen, JoinsAlone w.2 := by
  have ring : JoinsAlone (.ringRecord r) := fun _ _ _ => rfl
  have baseline (gen : Nat) (consumer : Bool) : JoinsAlone (.baselineRead r gen consumer) := fun _ _ _ => rfl
  simp [admissionAsks, joinsAlone_partRecord, ring, baseline]

/-- The read of an index word of ring `r` (R27). -/
def baselineEntry (r : Fin 16) (gen : Nat) (consumer : Bool) (d : RingDesc) : InjEntry :=
  readEntry .rmn (if consumer then d.consAddr else d.prodAddr) (.baseline r gen consumer)

theorem joins_admissionAsks (r : Fin 16) (part : PartState) (t : Word64) (gen : Nat) (s : State) :
    joins (admissionAsks r part t gen) s = injectedAll [partEntry (partCode part) s.ccu.cfg.restartGen t s,
      ringEntry r (s.ring r) s, baselineEntry r gen false (s.ring r).desc, baselineEntry r gen true (s.ring r).desc] s := by
  have ring (u : State) : joinOp .rmn (.ringRecord r) u = injected (ringEntry r (u.ring r) u) u := rfl
  have base (c : Bool) (u : State) : joinOp .rmn (.baselineRead r gen c) u = injected (baselineEntry r gen c (u.ring r).desc) u := rfl
  have own (e : InjEntry) (u : State) : (injected e u).ring r = u.ring r := rfl
  have place (g : Ring) (e : InjEntry) (u : State) : ringEntry r g (injected e u) = ringEntry r g u := rfl
  change joinOp .rmn (.baselineRead r gen true) (joinOp .rmn (.baselineRead r gen false) (joinOp .rmn (.ringRecord r)
    (joinOp .ccu (.partRecord part t) s))) = _
  rw [joinOp_partRecord, ring, base, base, own, own, own, place]
  simp [injected, injectedAll]

end Sys2Proof.Machine
end

section
/-! # The requests and the state of a changed RUN (O9) -/

namespace Sys2Proof.Machine

open Sys2Proof.Claims

theorem supervised_crane (s : State) (k : Fin 32) : (supervised s).crane k = resumeCrane s.now (s.crane k) :=
  Vector.getElem_map _ k.isLt

theorem resumeCrane_unbound {c : Crane} (t : Nat) (unbound : c.st = .unbound) : resumeCrane t c = c := by
  unfold resumeCrane
  dsimp only
  rw [unbound]

/-- A bound crane is supervised afresh (R85). -/
theorem resumeCrane_bound {c : Crane} (t : Nat) (bound : c.st ≠ .unbound) :
    (resumeCrane t c).countdown = some (t + c.deadline) ∧ (resumeCrane t c).lastSeq = none ∧ (resumeCrane t c).good = 0 ∧
      (resumeCrane t c).cmds = c.cmds ∧ (c.st = .hold → (resumeCrane t c).st = .hold ∧ (resumeCrane t c).ready = false) ∧
      (c.st ≠ .hold → (resumeCrane t c).st = .watch) := by
  unfold resumeCrane
  dsimp only
  cases state : c.st with
  | unbound => exact absurd state bound
  | watch => simp
  | live => simp
  | degraded => simp
  | hold => simp

/-- A valid ring that alone asks enters ENABLING with the part (R26, R172). -/
theorem run_resumes {x : Fin 16} {addr : Word} {beats : List Beat} {s : State} {v : Byte} {r : Fin 16}
    (offered : Offered addr beats s) (none : s.lif.hostShadow = [])
    (written : writtenBytes addr.toNat beats = [(s.areaBase, v)]) (ready : Ready 4 s) (value : (v != 0) = true)
    (part : s.ccu.part = .suspended) (off : s.ccu.cfg.run = false) (one : AdmitsOne r s) :
    let u := readied r (changed .running .runOn (runSet true (arrived x addr beats s)))
    let gen := (s.ring r).gen + 1
    exec (.ulinkWrite x addr beats) s = .next (injectedAll [partEntry 2 u.ccu.cfg.restartGen s.site u,
      ringEntry r (u.ring r) u, baselineEntry r gen false (u.ring r).desc, baselineEntry r gen true (u.ring r).desc]
      (supervised u)) := by
  intro u gen
  have rest : s.ccu.part ≠ .running ∧ s.ccu.part ≠ .suspending := by
    rw [part]
    exact ⟨PartState.noConfusion, PartState.noConfusion⟩
  have admits : AdmitsOne r (runSet true (arrived x addr beats s)) :=
    ⟨one.quiet, one.asks, (rejection_congr (s := s) (s.ring r).desc.enable rfl (fun _ _ => rfl) rfl).trans one.valid,
      one.others, one.restart, one.drain⟩
  have goes : runChanged (runSet true (arrived x addr beats s)) =
      enterRunning .runOn (runSet true (arrived x addr beats s)) := by
    have same : (runSet true (arrived x addr beats s)).ccu.part = .suspended := part
    have on : (runSet true (arrived x addr beats s)).ccu.cfg.run = true := rfl
    unfold runChanged
    rw [same, on]
  have link := readied_lif r (changed .running .runOn (runSet true (arrived x addr beats s)))
  have quiet : (supervised u).lif.injWaiting = [] := (congrArg Lif.injWaiting link).trans ready.quiet
  have room : (supervised u).lif.injQueue.length + 4 ≤ 16 :=
    ((congrArg (fun l : Lif => l.injQueue.length + 4) link).trans rfl).trans_le ready.room
  have joined := settle_asks (admissionAsks r .running s.site gen) (supervised u) (joinsAlone_admissionAsks _ _ _ _) quiet room
  rw [exec_ulinkWrite_run offered none written (.inr rest) value (off.trans_ne (by decide)), goes,
    enterRunning_one .runOn admits]
  exact congrArg Host.Outcome.next (joined.1.trans (joins_admissionAsks ..))

/-- What the entry to INITIALISING leaves of each block. -/
theorem run_initialises_leaves {x : Fin 16} {addr : Word} {beats : List Beat} {s : State} {v : Byte}
    (offered : Offered addr beats s) (none : s.lif.hostShadow = [])
    (written : writtenBytes addr.toNat beats = [(s.areaBase, v)]) (ready : Ready 4 s) (on : v ≠ 0)
    (part : s.ccu.part = .dormant) (off : s.ccu.cfg.run = false) :
    let shape (l : List InjEntry) := l.map fun e => (e.addr, e.isRead, e.ordered)
    let place (o : Nat) : Word := BitVec.ofNat 32 (s.areaBase + o)
    ∃ t, exec (.ulinkWrite x addr beats) s = .next t ∧ SameBut true false false false false false false true true s t ∧
      t.ccu = { s.ccu with
        cfg := { s.ccu.cfg with run := true }, part := .initialising, lastChange := s.site, capturedFrom := some x } ∧
      t.rpw = { s.rpw with
        events := s.rpw.events ++ [event .ccu .stateChanged .part 1 0 s.ccu.cfg.restartGen 1] } ∧
      t.lif.forwardPath = s.lif.forwardPath ++ [plainWrite x addr beats] ∧
      shape t.lif.injQueue = shape s.lif.injQueue ++
        [(place 0x8000, false, true), (place 0x5000, true, false), (place 0x5000, true, false),
          (place 0x5000, true, false)] := by
  intro shape place
  have leads := run_initialises (x := x) offered none written ready (bne_iff_ne.mpr on) part off
  have code : partCode (runSet true (arrived x addr beats s)).ccu.part = 0 := congrArg partCode part
  let u := changed .initialising .runOn (runSet true (arrived x addr beats s))
  have read (k : Fin 3) : ((indexRead k u).addr, (indexRead k u).isRead, (indexRead k u).ordered) =
      (place 0x5000, true, false) := by
    rw [indexRead_addr]
    rfl
  refine ⟨_, leads, ⟨rfl, rfl, nofun, fun _ => rfl, fun _ => rfl, fun _ => rfl, fun _ => rfl, fun _ => rfl, fun _ => rfl,
    nofun, nofun⟩, rfl, ?_, rfl, ?_⟩
  · change { s.rpw with events := s.rpw.events ++ [event .ccu .stateChanged .part 1
      (partCode (runSet true (arrived x addr beats s)).ccu.part) s.ccu.cfg.restartGen 1] } = _
    rw [code]
    rfl
  · change shape (s.lif.injQueue ++ [partEntry 1 u.ccu.cfg.restartGen s.site u, indexRead 0 u, indexRead 1 u, indexRead 2 u]) = _
    simp only [shape, List.map_append, List.map_cons, List.map_nil, read]
    rfl

/-- The entry to SUSPENDING with no snapshot to end and no held write to release (R173). -/
theorem run_suspends {x : Fin 16} {addr : Word} {beats : List Beat} {s : State} {v : Byte}
    (offered : Offered addr beats s) (none : s.lif.hostShadow = [])
    (written : writtenBytes addr.toNat beats = [(s.areaBase, v)]) (ready : Ready 1 s) (zero : v = 0)
    (part : s.ccu.part = .running) (on : s.ccu.cfg.run = true) (rings : OffTheRings s addr beats)
    (snap : s.cvm.snapRunning = false)
    (slots : ∀ r, (s.slot r).status = .holding → (s.ring r).commit ≠ .none ∧ (s.ring r).state ≠ .enabling) :
    exec (.ulinkWrite x addr beats) s = .next (raised [event .ccu .stateChanged .part 3 2 s.ccu.cfg.restartGen 2]
      (injected (partEntry 3 s.ccu.cfg.restartGen s.site s) { forwarded (plainWrite x addr beats) s with
        ccu := { s.ccu with
          cfg := { s.ccu.cfg with run := false }, part := .suspending, lastChange := s.site, capturedFrom := some x } })) := by
  have value : (v != 0) = false := by rw [zero]; rfl
  have code : partCode (runSet false (arrived x addr beats s)).ccu.part = 2 := congrArg partCode part
  have goes := runChanged_running (s := arrived x addr beats s) part snap slots
  have joined := settle_partRecord (s := changed .suspending .runOff (runSet false (arrived x addr beats s)))
    .suspending s.site ready.quiet ready.room
  rw [exec_ulinkWrite_run offered none written (.inl rings) value (on.trans_ne (by decide)), goes, changePart_eq]
  refine congrArg Host.Outcome.next (joined.trans ?_)
  unfold changed
  rw [code]
  rfl

/-- What the entry to RUNNING with one ring to admit leaves of each block. -/
theorem run_resumes_leaves {x : Fin 16} {addr : Word} {beats : List Beat} {s : State} {v : Byte} {r : Fin 16}
    (offered : Offered addr beats s) (none : s.lif.hostShadow = [])
    (written : writtenBytes addr.toNat beats = [(s.areaBase, v)]) (ready : Ready 4 s) (value : (v != 0) = true)
    (part : s.ccu.part = .suspended) (off : s.ccu.cfg.run = false) (one : AdmitsOne r s) :
    let shape (l : List InjEntry) := l.map fun e => (e.addr, e.isRead, e.ordered)
    let place (o : Nat) : Word := BitVec.ofNat 32 (s.areaBase + o)
    let beatOf (a : Nat) : Word := BitVec.ofNat 32 (a / 16 * 16)
    ∃ t, exec (.ulinkWrite x addr beats) s = .next t ∧ SameBut true true false true false false false true true s t ∧
      t.ccu = { s.ccu with
        cfg := { s.ccu.cfg with run := true }, part := .running, lastChange := s.site, capturedFrom := some x } ∧
      t.rpw = { s.rpw with
        events := s.rpw.events ++ [event .ccu .stateChanged .part 2 4 s.ccu.cfg.restartGen 1] } ∧
      (∀ k, t.crane k = resumeCrane s.tbs.runClock (s.crane k)) ∧
      t.ring r = { s.ring r with
        state := .enabling, gen := (s.ring r).gen + 1, commit := .none, outstanding := 0, keptC := .none, baseP := .none,
        baseC := .none, slotMap := [], desc := clampMarks (s.ring r).desc } ∧
      (∀ q, q ≠ r → t.ring q = s.ring q) ∧ (∀ b sl j, (t.buffer b).st ≠ .filling r sl j) ∧
      t.lif.prodShadow[r] = [] ∧ t.lif.consShadow[r] = [] ∧
      t.lif.forwardPath = s.lif.forwardPath ++ [plainWrite x addr beats] ∧
      shape t.lif.injQueue = shape s.lif.injQueue ++
        [(place 0x8000, false, true), (place (0x8100 + 16 * r.val), false, false),
          (beatOf (s.ring r).desc.prodAddr, true, false), (beatOf (s.ring r).desc.consAddr, true, false)] := by
  intro shape place beatOf
  let y := changed .running .runOn (runSet true (arrived x addr beats s))
  have leads := run_resumes (x := x) offered none written ready value part off one
  have code : partCode (runSet true (arrived x addr beats s)).ccu.part = 4 := congrArg partCode part
  have events : y.rpw = { s.rpw with
      events := s.rpw.events ++ [event .ccu .stateChanged .part 2 4 s.ccu.cfg.restartGen 1] } := by
    change { s.rpw with events := s.rpw.events ++ [event .ccu .stateChanged .part 2
      (partCode (runSet true (arrived x addr beats s)).ccu.part) s.ccu.cfg.restartGen 1] } = _
    rw [code]
    rfl
  obtain ⟨pending, pins, -, -, tdr, csv, rfm, cvm, tbs, ccu, rpw⟩ := readied_same r y
  have link := readied_lif r y
  have own := readied_ring r y
  have others (q : Fin 16) (other : q ≠ r) := readied_ring_ne y other
  have buffers := readied_buffer r y
  have base : (readied r y).areaBase = s.areaBase := congrArg (fun p : Pins => p.caSel.toNat * 2 ^ 24) pins
  generalize readied r y = u at leads pending pins tdr csv rfm cvm tbs ccu rpw link own others buffers base
  refine ⟨_, leads, ⟨pending, pins, nofun, nofun, fun _ => tdr rfl, nofun, fun _ => rfm rfl, fun _ => cvm rfl,
    fun _ => tbs rfl, nofun, nofun⟩, ccu rfl, (rpw rfl).trans events, fun k => ?_, own, others, buffers, ?_, ?_, ?_, ?_⟩
  · have crane : u.crane k = s.crane k := by
      unfold State.crane
      rw [csv rfl]
      rfl
    have now : u.now = s.tbs.runClock := congrArg Tbs.runClock (tbs rfl)
    exact (supervised_crane u k).trans (by rw [crane, now])
  · change u.lif.prodShadow[r] = []
    rw [link]
    exact upd_self ..
  · change u.lif.consShadow[r] = []
    rw [link]
    exact upd_self ..
  · change u.lif.forwardPath = _
    rw [link]
    rfl
  · have part_ (n : Nat) : ((partEntry 2 n s.site u).addr, (partEntry 2 n s.site u).isRead, (partEntry 2 n s.site u).ordered) =
        (place 0x8000, false, true) := congrArg (fun a => (BitVec.ofNat 32 (a + 0x8000), false, true)) base
    have record (g : Ring) : ((ringEntry r g u).addr, (ringEntry r g u).isRead, (ringEntry r g u).ordered) =
        (place (0x8100 + 16 * r.val), false, false) :=
      congrArg (fun a => (BitVec.ofNat 32 (a + (0x8100 + 16 * r.val)), false, false)) base
    have queue : u.lif.injQueue = s.lif.injQueue := by
      rw [link]
      rfl
    change shape (u.lif.injQueue ++ [partEntry 2 u.ccu.cfg.restartGen s.site u, ringEntry r (u.ring r) u,
      baselineEntry r _ false (u.ring r).desc, baselineEntry r _ true (u.ring r).desc]) = _
    rw [queue, own]
    simp only [shape, List.map_append, List.map_cons, List.map_nil, part_, record]
    rfl

/-- Settles O9: RUN in DORMANT, RUNNING and SUSPENDED. -/
theorem runOnStartsInitialisation : Obligations.RunOnStartsInitialisation := by
  intro x addr beats s v offered noneKept written at' beatOf shape
  refine ⟨fun ready on part off => run_initialises_leaves offered noneKept written ready on part off,
    fun ready zero part on rings snap slots => run_suspends offered noneKept written ready zero part on rings snap slots,
    fun ready on part off restart drain r asks valid others => ?_⟩
  obtain ⟨t, leads, same, ccu, rpw, cranes, rest⟩ := run_resumes_leaves (x := x) offered noneKept written ready
    (bne_iff_ne.mpr on) part off ⟨ready.quiet, asks, valid, others, restart, drain⟩
  refine ⟨t, leads, same, ccu, rpw, fun k unbound => ?_, fun k bound => ?_, rest⟩
  · rw [cranes, resumeCrane_unbound _ unbound]
  · rw [cranes]
    exact resumeCrane_bound _ bound

end Sys2Proof.Machine
end

section
/-! # The arithmetic of the header check (05, R92, R93) -/

namespace Sys2Proof.Machine

open Sys2Proof.Claims

/-! ## Ones'-complement sums -/

/-- A ones'-complement sum is the sum modulo 65535. -/
theorem ocAdd_cast (a b : Nat) : (ocAdd a b : ZMod 65535) = a + b := by
  have whole : ocAdd a b + 65535 * ((a + b) / 65536) = a + b := by
    unfold ocAdd
    omega
  have modulus : (65535 : ZMod 65535) = 0 := rfl
  calc (ocAdd a b : ZMod 65535) = (ocAdd a b + 65535 * ((a + b) / 65536) : Nat) := by push_cast; rw [modulus]; ring
    _ = a + b := by rw [whole]; push_cast; rfl

theorem ocAdd_le {a b : Nat} (ha : a ≤ 65535) (hb : b ≤ 65535) : ocAdd a b ≤ 65535 := by
  unfold ocAdd
  omega

theorem ocAdd_pos {a b : Nat} (some : 0 < a) : 0 < ocAdd a b := by
  unfold ocAdd
  omega

/-- What is left of 0xFFFF is the negative, modulo 65535. -/
theorem complement_cast {a : Nat} (small : a ≤ 65535) : ((65535 - a : Nat) : ZMod 65535) = -a := by
  have modulus : (65535 : ZMod 65535) = 0 := rfl
  rw [Nat.cast_sub small]
  push_cast
  rw [modulus, zero_sub]

/-- The patch keeps what the check and the changed word come to together (R93). -/
theorem patchWord_cast {check old new : Nat} (hc : check ≤ 65535) (ho : old ≤ 65535) (hn : new ≤ 65535) :
    (patchWord check old new : ZMod 65535) + new = check + old ∧ patchWord check old new ≤ 65535 := by
  unfold patchWord
  split
  · next same => exact ⟨by rw [same], hc⟩
  · have inner : ocAdd (65535 - check) (65535 - old) ≤ 65535 := ocAdd_le (Nat.sub_le ..) (Nat.sub_le ..)
    refine ⟨?_, Nat.sub_le ..⟩
    rw [complement_cast (ocAdd_le inner hn), ocAdd_cast, ocAdd_cast, complement_cast hc, complement_cast ho]
    ring

theorem beatWord_le (b : Beat) (j : Nat) : beatWord b j ≤ 65535 := by
  unfold beatWord
  omega

/-- The sum of a beat's words, modulo 65535. -/
def wordsOf (b : Beat) : ZMod 65535 :=
  beatWord b 0 + beatWord b 1 + beatWord b 2 + beatWord b 3 + beatWord b 4 + beatWord b 5 + beatWord b 6 + beatWord b 7

theorem beatSum_eq (acc : Nat) (b : Beat) : beatSum acc b =
    ocAdd (ocAdd (ocAdd (ocAdd (ocAdd (ocAdd (ocAdd (ocAdd acc (beatWord b 0)) (beatWord b 1)) (beatWord b 2))
      (beatWord b 3)) (beatWord b 4)) (beatWord b 5)) (beatWord b 6)) (beatWord b 7) := rfl

theorem beatSum_cast (acc : Nat) (b : Beat) : (beatSum acc b : ZMod 65535) = acc + wordsOf b := by
  simp only [beatSum_eq, ocAdd_cast, wordsOf]
  ring

theorem beatSum_le {acc : Nat} (b : Beat) (small : acc ≤ 65535) : beatSum acc b ≤ 65535 := by
  rw [beatSum_eq]
  exact ocAdd_le (ocAdd_le (ocAdd_le (ocAdd_le (ocAdd_le (ocAdd_le (ocAdd_le (ocAdd_le small (beatWord_le ..)) (beatWord_le ..))
    (beatWord_le ..)) (beatWord_le ..)) (beatWord_le ..)) (beatWord_le ..)) (beatWord_le ..)) (beatWord_le ..)

theorem beatSum_pos {acc : Nat} (b : Beat) (some : 0 < acc) : 0 < beatSum acc b := by
  rw [beatSum_eq]
  exact ocAdd_pos (ocAdd_pos (ocAdd_pos (ocAdd_pos (ocAdd_pos (ocAdd_pos (ocAdd_pos (ocAdd_pos some)))))))

/-- The only positive sum that is 0 modulo 65535 is 0xFFFF. -/
theorem eq_ffff {n : Nat} (some : 0 < n) (small : n ≤ 65535) (zero : (n : ZMod 65535) = 0) : n = 0xFFFF := by
  obtain ⟨k, rfl⟩ := (ZMod.natCast_eq_zero_iff n 65535).mp zero
  omega

/-! ## The words of a rewritten beat -/

/-- Digit 0 of a number in base 65536. -/
theorem digit_zero {w : Nat} (x : Nat) (small : w ≤ 65535) : (w + 65536 * x) / 65536 ^ 0 % 65536 = w := by
  rw [pow_zero, Nat.div_one]
  omega

/-- Its later digits are those of what is left. -/
theorem digit_succ {w : Nat} (x j : Nat) (small : w ≤ 65535) :
    (w + 65536 * x) / 65536 ^ (j + 1) % 65536 = x / 65536 ^ j % 65536 := by
  have rest : (w + 65536 * x) / 65536 = x := by omega
  rw [pow_succ', ← Nat.div_div_eq_div_mul, rest]

section
variable (b : Beat) {w0 w1 w2 w3 w7 : Nat} (h0 : w0 ≤ 65535) (h1 : w1 ≤ 65535) (h2 : w2 ≤ 65535) (h3 : w3 ≤ 65535)
  (h7 : w7 ≤ 65535)
include h0 h1 h2 h3 h7

theorem setWords_toNat : (setWords b w0 w1 w2 w3 w7).data.toNat = w0 + 65536 * (w1 + 65536 * (w2 + 65536 * (w3 + 65536 *
    (beatWord b 4 + 65536 * (beatWord b 5 + 65536 * (beatWord b 6 + 65536 * w7)))))) := by
  have h4 := beatWord_le b 4
  have h5 := beatWord_le b 5
  have h6 := beatWord_le b 6
  change (BitVec.ofNat 128 _).toNat = _
  rw [BitVec.toNat_ofNat, Nat.mod_eq_of_lt (by omega)]

/-- The words of a beat with words 0 to 3 and 7 replaced. -/
theorem setWords_word {j : Nat} (bound : j < 8) : beatWord (setWords b w0 w1 w2 w3 w7) j =
    [w0, w1, w2, w3, beatWord b 4, beatWord b 5, beatWord b 6, w7].getD j 0 := by
  have h4 := beatWord_le b 4
  have h5 := beatWord_le b 5
  have h6 := beatWord_le b 6
  have last : w7 / 65536 ^ 0 % 65536 = w7 := digit_zero 0 h7
  unfold beatWord
  rw [setWords_toNat b h0 h1 h2 h3 h7]
  change _ = [w0, w1, w2, w3, beatWord b 4, beatWord b 5, beatWord b 6, w7].getD j 0
  generalize beatWord b 4 = w4 at h4 ⊢
  generalize beatWord b 5 = w5 at h5 ⊢
  generalize beatWord b 6 = w6 at h6 ⊢
  interval_cases j
  · exact digit_zero _ h0
  · exact (digit_succ _ 0 h0).trans (digit_zero _ h1)
  · exact (digit_succ _ 1 h0).trans ((digit_succ _ 0 h1).trans (digit_zero _ h2))
  · exact (digit_succ _ 2 h0).trans ((digit_succ _ 1 h1).trans ((digit_succ _ 0 h2).trans (digit_zero _ h3)))
  · rw [digit_succ _ 3 h0, digit_succ _ 2 h1, digit_succ _ 1 h2, digit_succ _ 0 h3]
    exact digit_zero _ h4
  · rw [digit_succ _ 4 h0, digit_succ _ 3 h1, digit_succ _ 2 h2, digit_succ _ 1 h3, digit_succ _ 0 h4]
    exact digit_zero _ h5
  · rw [digit_succ _ 5 h0, digit_succ _ 4 h1, digit_succ _ 3 h2, digit_succ _ 2 h3, digit_succ _ 1 h4, digit_succ _ 0 h5]
    exact digit_zero _ h6
  · rw [digit_succ _ 6 h0, digit_succ _ 5 h1, digit_succ _ 4 h2, digit_succ _ 3 h3, digit_succ _ 2 h4, digit_succ _ 1 h5,
      digit_succ _ 0 h6]
    exact last

end

/-! ## The rewrite of beat 1 (R92, R93) -/

/-- The rewritten words fit. -/
theorem rewriteWords_le (d : RingDesc) (k : Tracker) (site : Nat) (b : Beat) :
    (rewriteWords d k site b).1 ≤ 65535 ∧ (rewriteWords d k site b).2.1 ≤ 65535 ∧
      (rewriteWords d k site b).2.2.1 ≤ 65535 ∧ (rewriteWords d k site b).2.2.2 ≤ 65535 := by
  have w0 := beatWord_le b 0
  have w1 := beatWord_le b 1
  have w2 := beatWord_le b 2
  have w3 := beatWord_le b 3
  unfold rewriteWords
  refine ⟨?_, ?_, ?_, ?_⟩
  · dsimp only
    split <;> omega
  · dsimp only
    split <;> omega
  · dsimp only
    split <;> omega
  · dsimp only
    split
    · cases k.cell with
      | none => exact w3
      | some c =>
        have := c.isLt
        dsimp only
        omega
    · exact w3

/-- The check that a rewrite leaves. -/
def patchedCheck (w : Nat × Nat × Nat × Nat) (b : Beat) : Nat :=
  patchWord (patchWord (patchWord (patchWord (beatWord b 7) (beatWord b 0) w.1) (beatWord b 1) w.2.1) (beatWord b 2) w.2.2.1)
    (beatWord b 3) w.2.2.2

theorem rewriteBeat_eq (d : RingDesc) (k : Tracker) (site : Nat) (b : Beat) : rewriteBeat d k site b =
    setWords b (rewriteWords d k site b).1 (rewriteWords d k site b).2.1 (rewriteWords d k site b).2.2.1
      (rewriteWords d k site b).2.2.2 (patchedCheck (rewriteWords d k site b) b) := rfl

/-- The patched check makes up for the words replaced (R93). -/
theorem patchedCheck_cast {w : Nat × Nat × Nat × Nat} (b : Beat) (h0 : w.1 ≤ 65535) (h1 : w.2.1 ≤ 65535)
    (h2 : w.2.2.1 ≤ 65535) (h3 : w.2.2.2 ≤ 65535) :
    (patchedCheck w b : ZMod 65535) + w.1 + w.2.1 + w.2.2.1 + w.2.2.2 =
      beatWord b 7 + beatWord b 0 + beatWord b 1 + beatWord b 2 + beatWord b 3 ∧ patchedCheck w b ≤ 65535 := by
  obtain ⟨e0, l0⟩ := patchWord_cast (beatWord_le b 7) (beatWord_le b 0) h0
  obtain ⟨e1, l1⟩ := patchWord_cast l0 (beatWord_le b 1) h1
  obtain ⟨e2, l2⟩ := patchWord_cast l1 (beatWord_le b 2) h2
  obtain ⟨e3, l3⟩ := patchWord_cast l2 (beatWord_le b 3) h3
  refine ⟨?_, l3⟩
  unfold patchedCheck
  linear_combination e0 + e1 + e2 + e3

/-- A word of the rewritten beat. -/
theorem rewriteBeat_word (d : RingDesc) (k : Tracker) (site : Nat) (b : Beat) {j : Nat} (bound : j < 8) :
    beatWord (rewriteBeat d k site b) j = [(rewriteWords d k site b).1, (rewriteWords d k site b).2.1,
      (rewriteWords d k site b).2.2.1, (rewriteWords d k site b).2.2.2, beatWord b 4, beatWord b 5, beatWord b 6,
      patchedCheck (rewriteWords d k site b) b].getD j 0 := by
  obtain ⟨h0, h1, h2, h3⟩ := rewriteWords_le d k site b
  rw [rewriteBeat_eq]
  exact setWords_word b h0 h1 h2 h3 (patchedCheck_cast b h0 h1 h2 h3).2 bound

/-- The words of a rewritten beat sum to what they did, modulo 65535 (R93). -/
theorem wordsOf_rewriteBeat (d : RingDesc) (k : Tracker) (site : Nat) (b : Beat) : wordsOf (rewriteBeat d k site b) = wordsOf b := by
  obtain ⟨h0, h1, h2, h3⟩ := rewriteWords_le d k site b
  have check := (patchedCheck_cast b h0 h1 h2 h3).1
  have word {j : Nat} (bound : j < 8) := rewriteBeat_word d k site b bound
  unfold wordsOf
  rw [word (j := 0) (by decide), word (j := 1) (by decide), word (j := 2) (by decide), word (j := 3) (by decide),
    word (j := 4) (by decide), word (j := 5) (by decide), word (j := 6) (by decide), word (j := 7) (by decide)]
  simp only [List.getD_cons_zero, List.getD_cons_succ]
  linear_combination check

/-- The header check holds after the rewrite where it held before (R93). -/
theorem rewriteBeat_keepsCheck (d : RingDesc) (k : Tracker) (site : Nat) {b0 b1 : Beat} (some : beatWord b0 0 ≠ 0)
    (holds : beatSum (beatSum 0 b0) b1 = 0xFFFF) : beatSum (beatSum 0 b0) (rewriteBeat d k site b1) = 0xFFFF := by
  have first : 0 < beatSum 0 b0 := by
    have start : 0 < ocAdd 0 (beatWord b0 0) := by
      have := beatWord_le b0 0
      unfold ocAdd
      omega
    rw [beatSum_eq]
    exact ocAdd_pos (ocAdd_pos (ocAdd_pos (ocAdd_pos (ocAdd_pos (ocAdd_pos (ocAdd_pos start))))))
  have whole : (65535 : ZMod 65535) = 0 := rfl
  have same : (beatSum (beatSum 0 b0) (rewriteBeat d k site b1) : ZMod 65535) = beatSum (beatSum 0 b0) b1 := by
    rw [beatSum_cast, wordsOf_rewriteBeat, ← beatSum_cast]
  exact eq_ffff (beatSum_pos _ first) (beatSum_le _ (beatSum_le _ (by decide))) (same.trans ((congrArg _ holds).trans whole))

/-- What the rewrite of a beat 1 replaces and leaves (R92). -/
theorem rewriteBeat_fields (d : RingDesc) (k : Tracker) (site : Nat) (b : Beat) :
    let b' := rewriteBeat d k site b
    b'.strobes = b.strobes ∧ beatWord b' 4 = beatWord b 4 ∧ beatWord b' 5 = beatWord b 5 ∧ beatWord b' 6 = beatWord b 6 ∧
      (d.stamp = true → beatWord b' 0 + 65536 * beatWord b' 1 = site % 2 ^ 32) ∧
      (d.stamp = false → beatWord b' 0 = beatWord b 0 ∧ beatWord b' 1 = beatWord b 1) ∧
      (d.hold = true → k.state = .watch ∨ k.state = .hold → beatWord b' 2 = 0) ∧
      (d.hold = false ∨ k.state ≠ .watch ∧ k.state ≠ .hold → beatWord b' 2 = beatWord b 2) ∧
      (∀ c, d.steer = true → k.bin ≠ none → k.hole = false → k.cell = some c →
        beatWord b' 3 = beatWord b 3 / 256 * 256 + c.val) ∧
      (d.steer = false ∨ k.bin = none ∨ k.hole = true ∨ k.cell = none → beatWord b' 3 = beatWord b 3) := by
  intro b'
  have w0 : beatWord b' 0 = (rewriteWords d k site b).1 := rewriteBeat_word d k site b (by decide)
  have w1 : beatWord b' 1 = (rewriteWords d k site b).2.1 := rewriteBeat_word d k site b (by decide)
  have w2 : beatWord b' 2 = (rewriteWords d k site b).2.2.1 := rewriteBeat_word d k site b (by decide)
  have w3 : beatWord b' 3 = (rewriteWords d k site b).2.2.2 := rewriteBeat_word d k site b (by decide)
  rw [w0, w1, w2, w3]
  refine ⟨rfl, rewriteBeat_word d k site b (by decide), rewriteBeat_word d k site b (by decide),
    rewriteBeat_word d k site b (by decide), fun on => ?_, fun off => ?_, fun on held => if_pos ⟨on, held⟩, fun free => ?_,
    fun c on bin hole cell => ?_, fun free => ?_⟩
  · have low : (rewriteWords d k site b).1 = site % 65536 := if_pos on
    have high : (rewriteWords d k site b).2.1 = site / 65536 % 65536 := if_pos on
    rw [low, high]
    omega
  · exact ⟨if_neg (ne_true_of_eq_false off), if_neg (ne_true_of_eq_false off)⟩
  · refine if_neg fun ⟨on, held⟩ => ?_
    rcases free with off | ⟨watch, hold⟩
    · exact Bool.false_ne_true (off.symm.trans on)
    · exact held.elim watch hold
  · have steers : d.steer = true ∧ k.bin.isSome = true ∧ (!k.hole) = true := by
      rw [hole]
      exact ⟨on, Option.isSome_iff_ne_none.mpr bin, rfl⟩
    refine (if_pos steers).trans ?_
    rw [cell]
  · by_cases steers : d.steer = true ∧ k.bin.isSome = true ∧ (!k.hole) = true
    · obtain ⟨on, bin, hole⟩ := steers
      have cell : k.cell = none := by
        rcases free with off | none | on' | none
        · exact absurd (off.symm.trans on) Bool.false_ne_true
        · rw [none] at bin
          exact absurd bin Bool.false_ne_true
        · rw [on'] at hole
          exact absurd hole Bool.false_ne_true
        · exact none
      refine (if_pos ⟨on, bin, hole⟩).trans ?_
      rw [cell]
    · exact if_neg steers

end Sys2Proof.Machine
end

section
/-! # The header beats of a downlink slot (05, R90 to R95) -/

namespace Sys2Proof.Machine

open Sys2Proof.Claims

/-! ## The way of a header beat -/

theorem beatPlace_address (addr : Word) : beatPlace addr.toNat = addr.toNat := if_pos addr.isLt

/-- A beat that passes by a ring does not go to its trackers. -/
theorem passesBy_rewrites {s : State} {addr : Word} {b : Beat} {q : Fin 16} (passes : PassesBy s addr [b] q) :
    (s.rewrites q && decide ((s.ring q).desc.base ≤ addr.toNat) && decide (addr.toNat < regionEnd (s.ring q).desc)) = false := by
  by_contra found
  simp only [Bool.not_eq_false, Bool.and_eq_true, decide_eq_true_eq, regionEnd] at found
  obtain ⟨⟨rewrites, low⟩, high⟩ := found
  unfold State.rewrites State.working at rewrites
  simp only [Bool.and_eq_true, Bool.or_eq_true, beq_iff_eq] at rewrites
  obtain ⟨⟨⟨down, -⟩, enabled⟩, working⟩ := rewrites
  have there := passes ⟨.inr enabled, working⟩ down 0 Nat.one_pos
  rw [Nat.mul_zero, Nat.add_zero, beatPlace_address] at there
  exact there ⟨low, of_decide_eq_true high⟩

/-- A write that writes no byte of a part page, and of no held word, is accepted with its beats as the trackers give them. -/
theorem ulinkWrite_rewritten {x : Fin 16} {addr : Word} {beats beats' : List Beat} {s u : State}
    (own : ∀ ab ∈ writtenBytes addr.toNat beats, ¬InPartPage s ab.1) (free : s.holders (writtenBytes addr.toNat beats) = [])
    (rewritten : rewriteBeats x addr.toNat beats s = (u, beats')) :
    ulinkWrite x addr beats s = captureHost x (writtenBytes addr.toNat beats)
      (ringTreatments x (writtenBytes addr.toNat beats) [] s.lif.txnCount (forwarded (plainWrite x addr beats') u)) := by
  have notOwned : ¬((writtenBytes addr.toNat beats).any fun ab => s.inPartPage ab.1) = true := by
    simp only [List.any_eq_true, not_exists, not_and]
    exact fun ab hab owned => own ab hab ((inPartPage_iff s ab.1).mp owned)
  unfold ulinkWrite
  dsimp only
  rw [if_neg notOwned, free, List.any_nil, if_neg Bool.false_ne_true]
  unfold acceptWrite
  dsimp only
  rw [free, rewritten, List.map_nil, forwardWrite, if_pos rfl]
  rfl

section
variable {r x : Fin 16} {sl off : Nat} {addr : Word} {b : Beat} {s : State} (h : HeaderBeat r x sl off addr b s)
include h

theorem headerBeat_rewrites : s.rewrites r = true := by
  unfold State.rewrites State.working
  rcases h.acts with on | on | on <;> simp [h.downlink, h.enabled, h.running, on]

/-- A header beat lies in its slot. -/
theorem headerBeat_place (header : off = 0 ∨ off = 16) : addr.toNat < regionEnd (s.ring r).desc ∧
    (addr.toNat - (s.ring r).desc.base) / (s.ring r).desc.slotSize = sl ∧
    (addr.toNat - (s.ring r).desc.base) % (s.ring r).desc.slotSize = off := by
  have size := h.size
  have small : off < (s.ring r).desc.slotSize := by omega
  have next : (sl + 1) * (s.ring r).desc.slotSize ≤ (s.ring r).desc.slotCount * (s.ring r).desc.slotSize :=
    Nat.mul_le_mul_right _ h.slot
  have inside : addr.toNat - (s.ring r).desc.base = off + sl * (s.ring r).desc.slotSize := by
    have := h.place
    omega
  rw [inside, Nat.add_mul_div_right _ _ (by omega), Nat.add_mul_mod_self_right, Nat.div_eq_of_lt small, Nat.mod_eq_of_lt small]
  refine ⟨?_, Nat.zero_add sl, rfl⟩
  unfold regionEnd
  have := h.place
  rw [Nat.succ_mul] at next
  omega

/-- It goes to the trackers of its ring (R14). -/
theorem headerBeat_rewriteRing (header : off = 0 ∨ off = 16) : s.rewriteRing addr.toNat = some r := by
  obtain ⟨below, -, -⟩ := headerBeat_place h header
  have low : (s.ring r).desc.base ≤ addr.toNat := by
    have := h.place
    omega
  refine find?_finRange_lowest ?_ fun q before => ?_
  · rw [headerBeat_rewrites h, decide_eq_true low, decide_eq_true below]
    rfl
  · exact passesBy_rewrites (h.passes q (Fin.ne_of_lt before)).1

theorem headerBeat_rewriteBeats {b' : Beat} {u : State} (header : off = 0 ∨ off = 16)
    (rewritten : downlinkBeat r x sl off b s = (u, b')) : rewriteBeats x addr.toNat [b] s = (u, [b']) := by
  obtain ⟨-, slot, offset⟩ := headerBeat_place h header
  have found : s.rewriteRing (beatPlace addr.toNat) = some r := by
    rw [beatPlace_address]
    exact headerBeat_rewriteRing h header
  rw [rewriteBeats, found]
  dsimp only
  rw [beatPlace_address, slot, offset, rewritten]
  rfl

/-- What becomes of the beat and of the ring's record is all that a header beat does but to be forwarded (R1, R14). -/
theorem exec_headerBeat {b' : Beat} {u : State} (header : off = 0 ∨ off = 16)
    (rewritten : downlinkBeat r x sl off b s = (u, b')) (keeps : u = { s with rmn := u.rmn })
    (others : ∀ q, q ≠ r → u.ring q = s.ring q) (desc : (u.ring r).desc = (s.ring r).desc) :
    exec (.ulinkWrite x addr [b]) s = .next (forwarded (plainWrite x addr [b']) u) := by
  let w := writtenBytes addr.toNat [b]
  let f := forwarded (plainWrite x addr [b']) u
  have own : ∀ ab ∈ w, ¬InPartPage s ab.1 := fun ab mem => (h.outside ab mem).2
  have free : s.holders w = [] := holders_none (fun q active => by
    by_cases here : q = r
    · rw [here]
      exact h.words.1
    · exact ((h.passes q here).2 active).2.1) fun _ => h.held
  have part : f.ccu.part = s.ccu.part := by
    change u.ccu.part = _
    rw [keeps]
  have clear (q : Fin 16) (other : q ≠ r) : ClearOf f w q := (clearOf_congr (others q other) part).mpr (h.passes q other).2
  have captures (q : Fin 16) : capturedFor x w f q = f := by
    by_cases here : q = r
    · have down : (f.ring r).desc.dir = .downlink := (congrArg RingDesc.dir desc).trans h.downlink
      have none : (f.windows r && (f.ring r).desc.dir == .uplink) = false := by
        rw [down]
        exact Bool.and_false _
      rw [here]
      exact if_neg (ne_true_of_eq_false none)
    · exact capturedFor_clear x (clear q here)
  have consumes (q : Fin 16) : consumerBytes q x w f = f := by
    by_cases here : q = r
    · have word : Misses (f.ring r).desc.consAddr 4 w := by
        rw [show (f.ring r).desc = (s.ring r).desc from desc]
        exact h.words.2
      rw [here]
      exact consumerBytes_misses word
    · exact consumerBytes_clear x (clear q here)
  have passes (q : Fin 16) : passProducer q x w f = f := by
    by_cases here : q = r
    · have word : Misses (f.ring r).desc.prodAddr 4 w := by
        rw [show (f.ring r).desc = (s.ring r).desc from desc]
        exact h.words.1
      rw [here]
      exact passProducer_misses word
    · exact passProducer_clear x (clear q here)
  have treats (id : Nat) : ringTreatments x w [] id f = f :=
    ringTreatments_eq (foldl_same fun q _ => captures q) (foldl_same fun q _ => consumes q) (foldl_same fun q _ => passes q)
  have outside : captureHost x w f = f := by
    refine captureHost_outside fun ab mem host => (h.outside ab mem).1 ?_
    have base : f.areaBase = s.areaBase := by
      change u.areaBase = _
      rw [keeps]
      rfl
    unfold InHostPage at host ⊢
    rwa [base] at host
  have quiet : f.lif.injWaiting = [] := by
    change u.lif.injWaiting = []
    rw [keeps]
    exact h.offered.quiet
  rw [exec_ulinkWrite h.offered, ulinkWrite_rewritten own free (headerBeat_rewriteBeats h header rewritten), treats, outside,
    settle_idle f quiet]

end

end Sys2Proof.Machine
end

section
/-! # Beat 0, beat 1 and the beats that spoil (O52) -/

namespace Sys2Proof.Machine

open Sys2Proof.Claims

/-! ## Slot records (R89) -/

/-- `s` with the record of slot `sl` of ring `r` set. -/
def recordSet (r : Fin 16) (sl : Nat) (e : SlotEntry) (s : State) : State :=
  withRing r { s.ring r with slotMap := mapPut sl e (s.ring r).slotMap } s

theorem setRecord_eq (r : Fin 16) (sl : Nat) (e : SlotEntry) (s : State) : setRecord r sl e s = recordSet r sl e s := onRing_eq rfl _

theorem mapDel_absent {α : Type} {k : Nat} {l : List (Nat × α)} (absent : mapGet l k = none) : mapDel k l = l := by
  refine List.filter_eq_self.mpr fun kv mem => ?_
  exact bne_iff_ne.mpr fun same => bne_iff_ne.mp (List.lookup_eq_none_iff.mp absent kv mem) same.symm

section
variable {r : Fin 16} {sl : Nat} {i : Word} {s : State}

theorem dropRecord_absent (absent : mapGet (s.ring r).slotMap sl = none) : dropRecord r sl s = s := by
  unfold dropRecord
  dsimp only
  rw [absent]
  change s.onRing r (fun g => { g with slotMap := mapDel sl g.slotMap }) = s
  rw [onRing_eq rfl, mapDel_absent absent]
  exact withRing_self r s

theorem dropStale_absent (absent : mapGet (s.ring r).slotMap sl = none) : dropStale r sl i s = s := by
  unfold dropStale
  rw [absent]

theorem record_absent (absent : mapGet (s.ring r).slotMap sl = none) : s.record r sl i = none := by
  unfold State.record
  rw [absent]

theorem record_tied {e : SlotEntry} (here : mapGet (s.ring r).slotMap sl = some e) (tied : e.index = i) :
    s.record r sl i = some e := by
  unfold State.record
  rw [here]
  exact if_pos tied

/-! ## The beats that spoil (R94) -/

variable {first : Bool} {cause : SkipCause}

theorem spoilBeat_absent (absent : mapGet (s.ring r).slotMap sl = none) :
    spoilBeat r sl i first cause s = recordSet r sl (.skipped cause none i) s := by
  unfold spoilBeat
  rw [record_absent absent, dropStale_absent absent]
  exact setRecord_eq ..

theorem spoilBeat_tracked {t : Fin 8} (here : mapGet (s.ring r).slotMap sl = some (.tracked t i)) :
    spoilBeat r sl i first cause s = recordSet r sl (.skipped cause (some (s.tracker t).facts) i) (trackerFreed t s) := by
  unfold spoilBeat
  rw [record_tied (i := i) here rfl]
  exact setRecord_eq ..

theorem spoilBeat_passed (here : mapGet (s.ring r).slotMap sl = some (.passed i)) :
    spoilBeat r sl i first cause s = if first then recordSet r sl (.skipped cause none i) s else s := by
  unfold spoilBeat
  rw [record_tied (i := i) here rfl]
  dsimp only
  rw [setRecord_eq]

theorem spoilBeat_skipped {v : SkipCause} {f : Option Facts} (here : mapGet (s.ring r).slotMap sl = some (.skipped v f i)) :
    spoilBeat r sl i first cause s = s := by
  unfold spoilBeat
  rw [record_tied (i := i) here rfl]

/-! ## Beat 1 (R92, R95) -/

variable {b : Beat}

theorem beat1_absent (absent : mapGet (s.ring r).slotMap sl = none) :
    beat1 r sl i b s = (recordSet r sl (.skipped .order none i) s, b) := by
  unfold beat1
  rw [record_absent absent, dropStale_absent absent, setRecord_eq]

theorem beat1_left (here : mapGet (s.ring r).slotMap sl = some (.passed i) ∨
    ∃ v f, mapGet (s.ring r).slotMap sl = some (.skipped v f i)) : beat1 r sl i b s = (s, b) := by
  unfold beat1
  rcases here with passed | ⟨v, f, skipped⟩
  · rw [record_tied (i := i) passed rfl]
  · rw [record_tied (i := i) skipped rfl]

/-- `s` with tracker `t` DONE, the time of its stamp latched where the ring stamps (R92). -/
def trackerDone (t : Fin 8) (d : RingDesc) (s : State) : State :=
  { s with rmn := { s.rmn with trackers := s.rmn.trackers.set t { s.tracker t with
    st := .done, stamp := if d.stamp then some s.tbs.runClock else (s.tracker t).stamp } } }

theorem beat1_tracked {t : Fin 8} (here : mapGet (s.ring r).slotMap sl = some (.tracked t i)) :
    beat1 r sl i b s = (trackerDone t (s.ring r).desc s, rewriteBeat (s.ring r).desc (s.tracker t) s.site.toNat b) := by
  unfold beat1
  rw [record_tied (i := i) here rfl]
  rfl

/-! ## Beat 0 (R90, R91) -/

/-- The tests of R90 that a beat 0 passes. -/
def CommandBeat (b : Beat) (s : State) : Prop :=
  (beatByte b 0).toNat = 0x5A ∧ (s.ccu.cfg.version = 0 ∨ s.ccu.cfg.version = (beatByte b 1).toNat) ∧
    (beatByte b 4).toNat = 2 ∧ s.ccu.cfg.kindMask.testBit 1 = true

theorem beat0Context_some {n : Fin 256} {k : Fin 32} (command : CommandBeat b s)
    (found : s.findTerm (beatFacts b).tid = some n) (bound : (s.entry n).ctx = some k) : s.beat0Context b = some k := by
  unfold State.beat0Context
  dsimp only
  refine (if_pos command).trans ?_
  rw [found]
  exact bound

theorem beat0Context_none (other : ¬CommandBeat b s ∨ s.findTerm (beatFacts b).tid = none ∨
    ∃ n, s.findTerm (beatFacts b).tid = some n ∧ (s.entry n).ctx = none) : s.beat0Context b = none := by
  unfold State.beat0Context
  dsimp only
  by_cases command : CommandBeat b s
  · rcases other with not | unknown | ⟨n, found, unbound⟩
    · exact absurd command not
    · refine (if_pos command).trans ?_
      rw [unknown]
    · refine (if_pos command).trans ?_
      rw [found]
      exact unbound
  · exact if_neg command

theorem beat0_passes (absent : mapGet (s.ring r).slotMap sl = none) (none : s.beat0Context b = none) :
    beat0 r sl i b s = recordSet r sl (.passed i) s := by
  unfold beat0
  dsimp only
  rw [dropRecord_absent absent, none]
  exact setRecord_eq ..

theorem beat0_skips {k : Fin 32} (absent : mapGet (s.ring r).slotMap sl = none) (context : s.beat0Context b = some k)
    (busy : ∀ t, (s.tracker t).st ≠ .free) :
    beat0 r sl i b s = recordSet r sl (.skipped .noTracker (some (beatFacts b)) i) s := by
  have none : s.freeTrackerIndex = none := find?_finRange_none fun t => beq_eq_false_iff_ne.mpr (busy t)
  unfold beat0
  dsimp only
  rw [dropRecord_absent absent, context]
  dsimp only
  rw [none]
  exact setRecord_eq ..

/-- A tracker as beat 0 opens it (R91). -/
def opened (r : Fin 16) (sl : Nat) (i : Word) (k : Fin 32) (b : Beat) (grid : Option (Fin 16) × Bool) (s : State) : Tracker :=
  { st := .opened, ring := r, slot := sl, index := i, ctx := k, facts := beatFacts b, state := (s.crane k).st,
    bin := (s.crane k).bin, cell := grid.1, hole := grid.2, stamp := none }

theorem beat0_opens {k : Fin 32} {t : Fin 8} {grid : Option (Fin 16) × Bool} (absent : mapGet (s.ring r).slotMap sl = none)
    (context : s.beat0Context b = some k) (free : (s.tracker t).st = .free) (lowest : ∀ j, j < t → (s.tracker j).st ≠ .free)
    (latches : s.latchGrid (s.crane k).bin = grid) :
    beat0 r sl i b s = recordSet r sl (.tracked t i)
      { s with rmn := { s.rmn with trackers := s.rmn.trackers.set t (opened r sl i k b grid s) } } := by
  have found : s.freeTrackerIndex = some t :=
    find?_finRange_lowest (beq_iff_eq.mpr free) fun j before => beq_eq_false_iff_ne.mpr (lowest j before)
  unfold beat0
  dsimp only
  rw [dropRecord_absent absent, context]
  dsimp only
  rw [found]
  change openTracker t r sl i k b s = _
  unfold openTracker
  dsimp only
  rw [latches]
  exact setRecord_eq ..

theorem latchGrid_on {c : Fin 64} {bin : Option (Fin 64)} (here : bin = some c) (on : s.ccu.cfg.coverageEn = true)
    (inside : c.val < s.ccu.cfg.binCount) : s.latchGrid bin = ((s.bin c).pref, (s.bin c).hole) := by
  rw [here]
  exact if_pos ⟨on, inside⟩

theorem latchGrid_off {bin : Option (Fin 64)} (off : bin = none ∨ s.ccu.cfg.coverageEn = false ∨
    ∃ c, bin = some c ∧ s.ccu.cfg.binCount ≤ c.val) : s.latchGrid bin = (none, false) := by
  unfold State.latchGrid
  cases bin with
  | none => rfl
  | some c =>
    refine if_neg fun ⟨on, inside⟩ => ?_
    rcases off with none | off | ⟨c', same, beyond⟩
    · exact Option.some_ne_none _ none
    · exact Bool.false_ne_true (off.symm.trans on)
    · rw [Option.some_inj.mp same] at inside
      omega

end

/-! ## What a header beat comes to -/

section
variable {r x : Fin 16} {sl off : Nat} {addr : Word} {b : Beat} {s : State} (h : HeaderBeat r x sl off addr b s)
  (header : off = 0 ∨ off = 16)

theorem producer_iff : (s.ring r).desc.producer x = true ↔ Produces r x s := by
  unfold RingDesc.producer Produces
  simp

include h header

/-- The table of R90 and R94 for a beat that writes something. -/
theorem downlinkBeat_eq (some : b.strobes ≠ 0) : downlinkBeat r x sl off b s =
    if !(s.ring r).desc.producer x then (spoilBeat r sl (indexOf (s.ring r) sl) (off == 0) .foreign s, b)
    else if b.strobes ≠ 0xFFFF then (spoilBeat r sl (indexOf (s.ring r) sl) (off == 0) .partialBeat s, b)
    else if off = 0 then (beat0 r sl (indexOf (s.ring r) sl) b s, b)
    else beat1 r sl (indexOf (s.ring r) sl) b s := by
  have free := h.free
  have skips : ¬((!decide (off = 0 ∨ off = 16)) = true ∨ (s.ring r).desc.slotCount - occupancy (s.ring r) ≤
      (BitVec.ofNat 32 sl - (s.ring r).prod).toNat % (s.ring r).desc.slotCount ∨ b.strobes = 0) := by
    rintro (other | full | none)
    · rw [decide_eq_true header] at other
      exact absurd other Bool.false_ne_true
    · unfold occupancy at full
      omega
    · exact some none
  unfold downlinkBeat
  dsimp only
  exact if_neg skips

/-- A beat that sets the record of its slot and forwards the beat as it came. -/
theorem header_sets {e : SlotEntry} {v : State} (comes : downlinkBeat r x sl off b s = (recordSet r sl e v, b))
    (keeps : v = { s with rmn := v.rmn }) (rings : v.rmn.rings = s.rmn.rings) :
    exec (.ulinkWrite x addr [b]) s = .next (withRing r
      { s.ring r with slotMap := mapPut sl e (s.ring r).slotMap } (forwarded (plainWrite x addr [b]) v)) := by
  have ring (q : Fin 16) : v.ring q = s.ring q := by
    unfold State.ring
    rw [rings]
  have set_ : recordSet r sl e v = withRing r { s.ring r with slotMap := mapPut sl e (s.ring r).slotMap } v := by
    unfold recordSet
    rw [ring]
  rw [set_] at comes
  have own : ((withRing r { s.ring r with slotMap := mapPut sl e (s.ring r).slotMap } v).ring r).desc = (s.ring r).desc := by
    rw [withRing_ring]
  have kept : withRing r { s.ring r with slotMap := mapPut sl e (s.ring r).slotMap } v = { s with
      rmn := (withRing r { s.ring r with slotMap := mapPut sl e (s.ring r).slotMap } v).rmn } := by
    conv_lhs => rw [keeps]
    rfl
  exact exec_headerBeat h header comes kept (fun q other => (withRing_ring_ne _ v other).trans (ring q)) own

/-- A beat that leaves the record of its slot. -/
theorem header_leaves (comes : downlinkBeat r x sl off b s = (s, b)) :
    exec (.ulinkWrite x addr [b]) s = .next (forwarded (plainWrite x addr [b]) s) :=
  exec_headerBeat h header comes rfl (fun _ _ => rfl) rfl

end

end Sys2Proof.Machine
end

section
/-! # The rewrite of downlink frames (O52) -/

namespace Sys2Proof.Machine

open Sys2Proof.Claims

section
variable {r x : Fin 16} {sl off : Nat} {addr : Word} {b : Beat} {s : State}

/-- A full header beat of the ring's producer is tested or rewritten (R90). -/
theorem downlinkBeat_full (h : HeaderBeat r x sl off addr b s) (header : off = 0 ∨ off = 16) (producer : Produces r x s)
    (full : b.strobes = 0xFFFF) : downlinkBeat r x sl off b s =
      if off = 0 then (beat0 r sl (indexOf (s.ring r) sl) b s, b) else beat1 r sl (indexOf (s.ring r) sl) b s := by
  have some : b.strobes ≠ 0 := by rw [full]; decide
  have own : ¬(!(s.ring r).desc.producer x) = true := by
    rw [producer_iff.mpr producer]
    exact Bool.false_ne_true
  rw [downlinkBeat_eq h header some, if_neg own, if_neg (not_not.mpr full)]

/-- A foreign or partial header beat spoils (R94). -/
theorem downlinkBeat_spoils (h : HeaderBeat r x sl off addr b s) (header : off = 0 ∨ off = 16) (some : b.strobes ≠ 0)
    {w : SkipCause} (why : w = .foreign ∧ ¬Produces r x s ∨ w = .partialBeat ∧ Produces r x s ∧ b.strobes ≠ 0xFFFF) :
    downlinkBeat r x sl off b s = (spoilBeat r sl (indexOf (s.ring r) sl) (off == 0) w s, b) := by
  rw [downlinkBeat_eq h header some]
  rcases why with ⟨rfl, foreign⟩ | ⟨rfl, producer, partly⟩
  · refine if_pos ?_
    rw [Bool.not_eq_true']
    exact Bool.eq_false_iff.mpr (mt producer_iff.mp foreign)
  · have own : ¬(!(s.ring r).desc.producer x) = true := by
      rw [producer_iff.mpr producer]
      exact Bool.false_ne_true
    rw [if_neg own, if_pos partly]

end

/-- Settles O52: the header check by arithmetic modulo 65535, the header beats by the record of their slot. -/
theorem rewriteKeepsTheHeaderCheck : Obligations.RewriteKeepsTheHeaderCheck := by
  refine ⟨fun d k site b0 b1 some holds => rewriteBeat_keepsCheck d k site some holds, ?_, ?_, ?_⟩
  · intro r x sl addr b s h absent g i f recorded command
    have sets {e : SlotEntry} {v : State} (comes : beat0 r sl i b s = recordSet r sl e v) (keeps : v = { s with rmn := v.rmn })
        (rings : v.rmn.rings = s.rmn.rings) : exec (.ulinkWrite x addr [b]) s = .next (recorded e v) := by
      refine header_sets h.toHeaderBeat (.inl rfl) ?_ keeps rings
      rw [downlinkBeat_full h.toHeaderBeat (.inl rfl) h.producer h.full, if_pos rfl]
      exact congrArg (fun u => (u, b)) comes
    refine ⟨fun other => sets (beat0_passes absent (beat0Context_none other)) rfl rfl,
      fun n k commands found bound busy => sets (beat0_skips absent (beat0Context_some commands found bound) busy) rfl rfl, ?_⟩
    intro n k t commands found bound free lowest latched
    have opens {grid : Option (Fin 16) × Bool} (latches : s.latchGrid (s.crane k).bin = grid) : latched grid.1 grid.2 :=
      sets (beat0_opens absent (beat0Context_some commands found bound) free lowest latches) rfl rfl
    exact ⟨fun c here on inside => opens (latchGrid_on here on inside), fun off => opens (latchGrid_off off)⟩
  · intro r x sl addr b s t h here k d b'
    have comes : downlinkBeat r x sl 16 b s = (trackerDone t d s, b') := by
      rw [downlinkBeat_full h.toHeaderBeat (.inr rfl) h.producer h.full, if_neg (by decide), beat1_tracked here]
    exact ⟨exec_headerBeat h.toHeaderBeat (.inr rfl) comes rfl (fun _ _ => rfl) rfl, rewriteBeat_fields d k s.site.toNat b⟩
  · intro r x sl off addr b s h g i leaves passes
    refine ⟨fun w header some why => ?_, fun second producer full => ?_⟩
    · have spoils := downlinkBeat_spoils h header some why
      have sets {e : SlotEntry} {v : State} (comes : spoilBeat r sl i (off == 0) w s = recordSet r sl e v)
          (keeps : v = { s with rmn := v.rmn }) (rings : v.rmn.rings = s.rmn.rings) : leaves e v :=
        header_sets h header (spoils.trans (congrArg (fun u => (u, b)) comes)) keeps rings
      have stays (comes : spoilBeat r sl i (off == 0) w s = s) : passes :=
        header_leaves h header (spoils.trans (congrArg (fun u => (u, b)) comes))
      refine ⟨fun absent => sets (spoilBeat_absent absent) rfl rfl, fun t tracked => sets (spoilBeat_tracked tracked) rfl rfl,
        fun passed zero => sets ((spoilBeat_passed passed).trans (if_pos (beq_iff_eq.mpr zero))) rfl rfl,
        fun passed late => stays ((spoilBeat_passed passed).trans (if_neg ?_)), fun v f skipped => stays (spoilBeat_skipped skipped)⟩
      rw [late]
      decide
    · have comes : downlinkBeat r x sl off b s = beat1 r sl i b s := by
        rw [downlinkBeat_full h (.inr second) producer full, if_neg (by omega)]
      exact ⟨fun absent => header_sets h (.inr second) (comes.trans (beat1_absent absent)) rfl rfl,
        fun here => header_leaves h (.inr second) (comes.trans (beat1_left here))⟩

end Sys2Proof.Machine
end
